-- ==== Sys2Proof/Word.lean ====
section
/-! DEFINITION. The widths the spec fixes (rules R7, R9, R11, R13, R14): bytes, host addresses, command
words, 64-bit lanes, and the two shapes a run of bytes takes. Bit 0 is the least significant bit everywhere. -/

namespace Sys2Proof

/-- A byte: one host transfer, one byte of a register or of a field (R14, R81). -/
abbrev Byte := BitVec 8

/-- A 10-bit host byte address (R9, R80). -/
abbrev Addr := BitVec 10

/-- The 24-bit command word `A1 A0 OP` (R110). -/
abbrev CmdWord := BitVec 24

/-- An option register: a 16-bit count of bits (R14, R39). -/
abbrev Half := BitVec 16

/-- One of the 25 words of the permutation state (R14). -/
abbrev Lane := BitVec 64

/-- A field value: a finite sequence of bytes in natural order (R13). -/
abbrev Bytes := List Byte

/-- A 200-byte state buffer, in offset order (R7). -/
abbrev Buf := Vector Byte 200

/-- The 25 lanes by lane number `i = x + 5 y` (R141). -/
abbrev Lanes := Vector Lane 25

/-- `n` zero bytes (R13, `0^n`). -/
def zeros (n : Nat) : Vector Byte n := Vector.replicate n 0

end Sys2Proof
end

