-- ==== Sys2Proof/Syntax.lean ====
section
/-! DEFINITION. The command set: one constructor per row of spec/opcode_table.json (R4, R113), with the
operands of its format (R111, R112), and the five families of R118. -/

namespace Sys2Proof

/-- The families of R118, used by the selector and as the label of a debug event. -/
inductive Family where
  | topc
  | f1
  | f1star
  | f2345
  | f5star
deriving DecidableEq, Repr

/-- The 13 commands of TUAK-CORE (R113). -/
inductive Instr where
  /-- NOP (R252). -/
  | nop
  /-- STATE_INIT (R191). -/
  | stateInit
  /-- PERMUTE `len` (R154). -/
  | permute (len : Byte)
  /-- PUSH_FIELD `off`, `len` (R192). -/
  | pushField (off len : Byte)
  /-- PULL_FIELD `off`, `len` (R193). -/
  | pullField (off len : Byte)
  /-- INSTANCE `sel` (R220). -/
  | selectInst (sel : Byte)
  /-- SESSION_INIT (R241). -/
  | sessionInit
  /-- SESSION_CLOSE (R242). -/
  | sessionClose
  /-- COMPUTE_TOPC (R245). -/
  | computeTopc
  /-- F1 (R248). -/
  | f1
  /-- F1STAR (R249). -/
  | f1star
  /-- F2345 (R250). -/
  | f2345
  /-- F5STAR (R251). -/
  | f5star
deriving DecidableEq, Repr

end Sys2Proof
end

