-- ==== Sys2Proof/WellFormed.lean ====
section
/-! DEFINITION. Which command terms have a word (R111, R114, R115). The one constraint on an operand is the
selector of INSTANCE, a family code 0 to 4; every `len` and `off` of formats L and OL decodes. -/

namespace Sys2Proof

/-- A term that some command word decodes to. -/
def Instr.wellFormed : Instr → Bool
  | .nop => true
  | .stateInit => true
  | .permute _ => true
  | .pushField _ _ => true
  | .pullField _ _ => true
  | .selectInst sel => decide (sel.toNat ≤ 4)
  | .sessionInit => true
  | .sessionClose => true
  | .computeTopc => true
  | .f1 => true
  | .f1star => true
  | .f2345 => true
  | .f5star => true

end Sys2Proof
end

