-- ==== Sys2Proof/Machine/State.lean ====
section
/-! DEFINITION. The state of TUAK-CORE as plain data: every register of R34 under its own name, the debug
event history of R55, and the two ends of the host port (the transactions the host has yet to issue and the
bytes its reads have returned), which are the model's own (notes/assumptions/1.md). -/

namespace Sys2Proof.Machine

/-- The session state SESS[1:0] (R43). -/
inductive Sess where
  | none
  | uninitialized
  /-- Exists only inside an F-command (R43, R51). -/
  | topcResolved
  | ready
deriving DecidableEq, Repr

/-- The result code ERR[2:0] (R44, R300). Codes 6 and 7 are never written, and no value here stands for them. -/
inductive Err where
  | ok
  | invalidLength
  | invalidParameter
  | missingInput
  | illegalCommand
  | sequence
deriving DecidableEq, Repr

/-- A field register of `cap` bytes, in natural order, with its length register: the inputs of R36 and R37 and
the outputs of R48. -/
structure FieldReg (cap : Nat) where
  bytes : Vector Byte cap
  len : Byte
deriving DecidableEq, Repr

/-- A debug event `Dbg(label, index, snapshot)` (R312). -/
structure DbgEvent where
  label : Family
  index : Byte
  snapshot : Buf
deriving DecidableEq, Repr

/-- What the host can do to the block (R81, R354), and a reset (R340, R342). -/
inductive HostReq where
  /-- `Read(addr)` (R82). -/
  | read (addr : Addr)
  /-- `Write(addr, data)` (R83). -/
  | write (addr : Addr) (data : Byte)
  /-- The platform asserts reset between transactions (R340). -/
  | reset
  /-- A CMD_OP write of `data` during which the platform asserts reset (R342). -/
  | interruptedCommand (data : Byte)
deriving DecidableEq, Repr

/-- Reasons the machine stops with a fault. TUAK-CORE has none: every error is a result code in ERR and the
block goes on (R301, R305, R306), no host access is misaligned or out of range (R89), and every command ends
(R315). So nothing raises one, and the type has no constructor. -/
inductive Fault where
deriving DecidableEq, Repr

/-- Reasons a step has no meaning. -/
inductive Refusal where
  /-- An arm of `exec` that has no meaning yet, by its mnemonic. No arm answers with it. Safe. -/
  | notModelled (mnemonic : String)
  /-- Raised by `hostStep` alone, when a host transaction would find SESS = TOPC_RESOLVED, a value the host never
  sees (R43; 93_implementation_defined.md U6 says to refuse it). No run from reset meets it. Safe. -/
  | topcResolvedVisible
deriving DecidableEq, Repr

/-- The whole state between host transactions (R31, R34, R55). -/
structure State where
  /-- STATE, the host-visible 200-byte buffer `S` (R35). -/
  stateBuf : Buf
  /-- K and K_LEN (R36, R37). -/
  k : FieldReg 32
  /-- TOP and TOP_LEN. -/
  top : FieldReg 32
  /-- TOPC_IN and TOPC_LEN. -/
  topcIn : FieldReg 32
  /-- RAND and RAND_LEN. -/
  rand : FieldReg 16
  /-- SQN and SQN_LEN. -/
  sqn : FieldReg 6
  /-- AMF and AMF_LEN. -/
  amf : FieldReg 2
  /-- KLENGTH, in bits, 0 = infer (R39). -/
  klength : Half
  /-- MACLENGTH, in bits, 0 = unset (R39). -/
  maclength : Half
  /-- RESLENGTH. -/
  reslength : Half
  /-- CKLENGTH. -/
  cklength : Half
  /-- IKLENGTH. -/
  iklength : Half
  /-- ITER, KeccakIterations (R40). -/
  iter : Byte
  /-- FIELD, the codec's data register (R41). -/
  field : Vector Byte 32
  /-- TOPC_CACHE (R42). -/
  topcCache : Vector Byte 32
  /-- SESS[1:0]; SESS[7:2] read as 0 (R43). -/
  sess : Sess
  /-- ERR[2:0]; ERR[7:3] read as 0 (R44). -/
  err : Err
  /-- INST (R45). -/
  inst : Byte
  /-- CTRL[0], DBG_EN; CTRL[7:1] read as 0 and ignore writes (R46). -/
  dbgEn : Bool
  /-- CMD_OP (R47). -/
  cmdOp : Byte
  /-- CMD_A0 (R47). -/
  cmdA0 : Byte
  /-- CMD_A1 (R47). -/
  cmdA1 : Byte
  /-- TOPC_OUT and TOPC_OUT_LEN (R48). -/
  topcOut : FieldReg 32
  /-- MACA and MACA_LEN. -/
  maca : FieldReg 32
  /-- MACS and MACS_LEN. -/
  macs : FieldReg 32
  /-- RES and RES_LEN. -/
  res : FieldReg 32
  /-- CK and CK_LEN. -/
  ck : FieldReg 32
  /-- IK and IK_LEN. -/
  ik : FieldReg 32
  /-- AK and AK_LEN. -/
  ak : FieldReg 6
  /-- AKS and AKS_LEN. -/
  aks : FieldReg 6
  /-- The debug events emitted since reset, oldest first: an output history (R55, R312). -/
  dbg : List DbgEvent
  /-- The model's own: the host's transactions still to come, next first. -/
  port : List HostReq
  /-- The model's own: the bytes the host's reads have returned, oldest first (R82). -/
  readData : List Byte
deriving DecidableEq, Repr

/-- A field register at reset: every byte and its length 0x00 (R340). -/
def FieldReg.zero (cap : Nat) : FieldReg cap := ⟨zeros cap, 0⟩

/-- The machine right after reset (R340): every register 0x00 but ITER = 1, no debug event, and at the port no
transaction yet and nothing returned. -/
def State.reset : State where
  stateBuf := zeros 200
  k := FieldReg.zero 32
  top := FieldReg.zero 32
  topcIn := FieldReg.zero 32
  rand := FieldReg.zero 16
  sqn := FieldReg.zero 6
  amf := FieldReg.zero 2
  klength := 0
  maclength := 0
  reslength := 0
  cklength := 0
  iklength := 0
  iter := 1
  field := zeros 32
  topcCache := zeros 32
  sess := .none
  err := .ok
  inst := 0
  dbgEn := false
  cmdOp := 0
  cmdA0 := 0
  cmdA1 := 0
  topcOut := FieldReg.zero 32
  maca := FieldReg.zero 32
  macs := FieldReg.zero 32
  res := FieldReg.zero 32
  ck := FieldReg.zero 32
  ik := FieldReg.zero 32
  ak := FieldReg.zero 6
  aks := FieldReg.zero 6
  dbg := []
  port := []
  readData := []

end Sys2Proof.Machine
end

