-- ==== Sys2Proof/Machine/Flags.lean ====
section
/-! DEFINITION. The status registers ERR and SESS: their codes (R43, R300) and the two ways a command ends, by an
error (R302) or by success (R303). These are the machine's only "exceptions": an error saves nothing, masks
nothing and transfers control nowhere, and there is no return from one (R305, R306). -/

namespace Sys2Proof.Machine

/-- ERR[2:0] of a result code (R300). -/
def Err.code : Err → Byte
  | .ok => 0
  | .invalidLength => 1
  | .invalidParameter => 2
  | .missingInput => 3
  | .illegalCommand => 4
  | .sequence => 5

/-- SESS[1:0] of a session state (R43). -/
def Sess.code : Sess → Byte
  | .none => 0
  | .uninitialized => 1
  | .topcResolved => 2
  | .ready => 3

/-- `raise E`: ERR takes E's code and nothing else changes (R15, R302). -/
def State.raise (e : Err) (s : State) : State := { s with err := e }

/-- The last step of a command that does not raise: `ERR <- OK` (R303). -/
def State.done (s : State) : State := { s with err := .ok }

/-- The end of a check that may raise: the error's effect, or the success `f` of what the check gives. -/
def State.endWith {α : Type} (s : State) (f : α → State) :
    Except Err α → Host.Outcome State Fault Refusal
  | .error e => .next (s.raise e)
  | .ok a => .next (f a)

end Sys2Proof.Machine
end

