-- ==== Sys2Proof/Decode.lean ====
section
/-! DEFINITION. Decoding a command word (R110 to R116), total and rejecting by name, and the encoder of the
same tables. -/

namespace Sys2Proof

/-- Why a word is illegal (R115). Each of the three raises ILLEGAL_COMMAND and has no other effect. -/
inductive DecodeError where
  /-- OP is in 0x06..0x0F or 0x17..0xFF. -/
  | unassignedOpcode
  /-- An argument that the format says must be zero is not. -/
  | nonzeroArgument
  /-- Format S with A0 in 5..255. -/
  | selectorRange
deriving DecidableEq, Repr

/-- `W[7:0]`, the opcode (R110). -/
def opField (w : CmdWord) : Byte := w.extractLsb' 0 8

/-- `W[15:8]`, argument 0 (R110). -/
def a0Field (w : CmdWord) : Byte := w.extractLsb' 8 8

/-- `W[23:16]`, argument 1 (R110). -/
def a1Field (w : CmdWord) : Byte := w.extractLsb' 16 8

/-- The word formed from the three command bytes: `A1 << 16 | A0 << 8 | OP` (R110). -/
def cmdWord (op a0 a1 : Byte) : CmdWord :=
  a1.setWidth 24 <<< 16 ||| a0.setWidth 24 <<< 8 ||| op.setWidth 24

/-- Format N: both arguments must be zero (R111). -/
def formatN (a0 a1 : Byte) (i : Instr) : Except DecodeError Instr :=
  if a0 = 0 ∧ a1 = 0 then .ok i else .error .nonzeroArgument

/-- Format L: A0 is the length, A1 must be zero (R111). -/
def formatL (a0 a1 : Byte) (i : Byte → Instr) : Except DecodeError Instr :=
  if a1 = 0 then .ok (i a0) else .error .nonzeroArgument

/-- Format OL: A0 is the offset, A1 the length; no constraint (R111, R114). -/
def formatOL (a0 a1 : Byte) (i : Byte → Byte → Instr) : Except DecodeError Instr :=
  .ok (i a0 a1)

/-- Format S: A0 is a family code, A1 must be zero (R111, R114). -/
def formatS (a0 a1 : Byte) (i : Byte → Instr) : Except DecodeError Instr :=
  if a1 ≠ 0 then .error .nonzeroArgument
  else if a0.toNat > 4 then .error .selectorRange
  else .ok (i a0)

/-- Decoding of the three fields, by the opcode table of R113. -/
def decodeFields (op a0 a1 : Byte) : Except DecodeError Instr :=
  match op.toNat with
  | 0x00 => formatN a0 a1 .nop
  | 0x01 => formatN a0 a1 .stateInit
  | 0x02 => formatL a0 a1 .permute
  | 0x03 => formatOL a0 a1 .pushField
  | 0x04 => formatOL a0 a1 .pullField
  | 0x05 => formatS a0 a1 .selectInst
  | 0x10 => formatN a0 a1 .sessionInit
  | 0x11 => formatN a0 a1 .sessionClose
  | 0x12 => formatN a0 a1 .computeTopc
  | 0x13 => formatN a0 a1 .f1
  | 0x14 => formatN a0 a1 .f1star
  | 0x15 => formatN a0 a1 .f2345
  | 0x16 => formatN a0 a1 .f5star
  | _ => .error .unassignedOpcode

/-- `decode(W)` of R114. -/
def decode (w : CmdWord) : Except DecodeError Instr :=
  decodeFields (opField w) (a0Field w) (a1Field w)

/-- The word of a command, from the same tables (R111, R113). -/
def encode : Instr → CmdWord
  | .nop => cmdWord 0x00 0 0
  | .stateInit => cmdWord 0x01 0 0
  | .permute len => cmdWord 0x02 len 0
  | .pushField off len => cmdWord 0x03 off len
  | .pullField off len => cmdWord 0x04 off len
  | .selectInst sel => cmdWord 0x05 sel 0
  | .sessionInit => cmdWord 0x10 0 0
  | .sessionClose => cmdWord 0x11 0 0
  | .computeTopc => cmdWord 0x12 0 0
  | .f1 => cmdWord 0x13 0 0
  | .f1star => cmdWord 0x14 0 0
  | .f2345 => cmdWord 0x15 0 0
  | .f5star => cmdWord 0x16 0 0

/-- The command a row's bits stand for: `nbits` of `w` as the opcode table numbers them, every bit above them 0. -/
def tableWord (nbits w : Nat) : CmdWord := BitVec.ofNat 24 (w % 2 ^ nbits)

/-- The command the decoder reads from a row of spec/opcode_table.json (bit 0 is OP's least significant bit). -/
def decodeTableWord (nbits w : Nat) : Option Instr :=
  match decode (tableWord nbits w) with
  | .ok i => some i
  | .error _ => none

end Sys2Proof
end

