-- ==== Sys2Proof/Machine/Operands.lean ====
section
/-! DEFINITION. Where a command's operands come from: the command word (R47, R110), the family codes (R118), and
the values of the input registers, each the bytes its length register counts (R36). -/

namespace Sys2Proof.Machine

/-- The command word the engine executes (R47, R110). -/
def State.commandWord (s : State) : CmdWord := cmdWord s.cmdOp s.cmdA0 s.cmdA1

/-- The 3-bit code of a family (R118). -/
def familyCode : Family → Byte
  | .topc => 0
  | .f1 => 1
  | .f1star => 2
  | .f2345 => 3
  | .f5star => 4

/-- The family a selector operand names (R118). -/
def familyOfCode (sel : Byte) : Option Family :=
  match sel.toNat with
  | 0 => some .topc
  | 1 => some .f1
  | 2 => some .f1star
  | 3 => some .f2345
  | 4 => some .f5star
  | _ => none

/-- `REG[0..n)`: the first `n` bytes of a register (R13). -/
def firstBytes {cap : Nat} (v : Vector Byte cap) (n : Nat) : Bytes := v.toList.take n

/-- The value of K: `R(K)[0..R(K_LEN))` (R36). -/
def State.keyValue (s : State) : Bytes := firstBytes s.k.bytes s.k.len.toNat

/-- `R(TOP)[0..32)` (R247). -/
def State.topValue (s : State) : Bytes := firstBytes s.top.bytes 32

/-- `R(RAND)[0..16)` (R247). -/
def State.randValue (s : State) : Bytes := firstBytes s.rand.bytes 16

/-- `R(SQN)[0..6)` (R247). -/
def State.sqnValue (s : State) : Bytes := firstBytes s.sqn.bytes 6

/-- `R(AMF)[0..2)` (R247). -/
def State.amfValue (s : State) : Bytes := firstBytes s.amf.bytes 2

end Sys2Proof.Machine
end

