-- ==== Sys2Proof/Machine/Ops.lean ====
section
/-! DEFINITION. The named operations over registers: zero-filled writes (R48, R193, R254), the debug port (R312),
reset (R340, R342), and the host's view of the register space: the register map of R92 as a table, and the byte
reads and writes of R82 and R83 through it. -/

namespace Sys2Proof.Machine

/-- Byte `i` of a run of bytes; a place outside it, which no rule reads, gives 0x00. -/
def byteAt {n : Nat} (v : Vector Byte n) (i : Nat) : Byte := v[i]?.getD 0

/-- A register of `cap` bytes that takes the bytes of `v` and 0x00 past them (R193, R254). -/
@[irreducible] def fill (cap : Nat) (v : Bytes) : Vector Byte cap := Vector.ofFn fun i => v.getD i.val 0

/-- `WriteOut(REG, LENREG, v)`: the bytes of `v`, zero fill, and the length (R254). -/
def writeOut (cap : Nat) (v : Bytes) : FieldReg cap := ⟨fill cap v, BitVec.ofNat 8 v.length⟩

/-- `emit Dbg(label, index, snapshot)`, when CTRL.DBG_EN is 1 (R243, R312). -/
def State.emit (e : DbgEvent) (s : State) : State :=
  { s with dbg := if s.dbgEn then s.dbg ++ [e] else s.dbg }

/-- A reset of the block: every register at its reset value and an empty event history (R340). The host and what
it has read are outside the block, so the two ends of the port stay (notes/assumptions/4.md). -/
def State.resetBlock (s : State) : State :=
  { State.reset with port := s.port, readData := s.readData }

/-! ## The register space -/

/-- The host-visible registers (R34), each under the spec's name. -/
inductive Reg where
  | STATE | K | TOP | TOPC_IN | RAND | SQN | AMF
  | K_LEN | TOP_LEN | TOPC_LEN | RAND_LEN | SQN_LEN | AMF_LEN
  | KLENGTH | MACLENGTH | RESLENGTH | CKLENGTH | IKLENGTH | ITER
  | FIELD | TOPC_CACHE | SESS | ERR | INST | CTRL | CMD_OP | CMD_A0 | CMD_A1
  | TOPC_OUT | MACA | MACS | RES | CK | IK | AK | AKS
  | TOPC_OUT_LEN | MACA_LEN | MACS_LEN | RES_LEN | CK_LEN | IK_LEN | AK_LEN | AKS_LEN
deriving DecidableEq, Repr

/-- The access classes of R34. -/
inductive Access where
  /-- The host reads and writes it at any time. -/
  | rw
  /-- Writable only while no session exists (R49). -/
  | rwL
  /-- Host writes are ignored (R50). -/
  | ro
  /-- As `rw`, and a write also triggers a command: CMD_OP only (R47). -/
  | rwT
deriving DecidableEq, Repr

/-- A row of the register map (R92). -/
structure RegRow where
  base : Nat
  reg : Reg
  bytes : Nat
  access : Access
deriving DecidableEq, Repr

/-- The STATE buffer and the input registers of the map (R92). -/
def inputRows : List RegRow := [
  ⟨0x000, .STATE, 200, .rw⟩,
  ⟨0x100, .K, 32, .rwL⟩, ⟨0x120, .TOP, 32, .rwL⟩, ⟨0x140, .TOPC_IN, 32, .rwL⟩,
  ⟨0x160, .RAND, 16, .rwL⟩, ⟨0x170, .SQN, 6, .rwL⟩, ⟨0x176, .AMF, 2, .rwL⟩,
  ⟨0x180, .K_LEN, 1, .rwL⟩, ⟨0x181, .TOP_LEN, 1, .rwL⟩, ⟨0x182, .TOPC_LEN, 1, .rwL⟩,
  ⟨0x183, .RAND_LEN, 1, .rwL⟩, ⟨0x184, .SQN_LEN, 1, .rwL⟩, ⟨0x185, .AMF_LEN, 1, .rwL⟩,
  ⟨0x188, .KLENGTH, 2, .rwL⟩, ⟨0x18A, .MACLENGTH, 2, .rwL⟩, ⟨0x18C, .RESLENGTH, 2, .rwL⟩,
  ⟨0x18E, .CKLENGTH, 2, .rwL⟩, ⟨0x190, .IKLENGTH, 2, .rwL⟩, ⟨0x192, .ITER, 1, .rwL⟩]

/-- The codec, session, status and command registers of the map (R92). -/
def controlRows : List RegRow := [
  ⟨0x1A0, .FIELD, 32, .rw⟩, ⟨0x1C0, .TOPC_CACHE, 32, .ro⟩,
  ⟨0x1E0, .SESS, 1, .ro⟩, ⟨0x1E1, .ERR, 1, .ro⟩, ⟨0x1E2, .INST, 1, .ro⟩, ⟨0x1E3, .CTRL, 1, .rw⟩,
  ⟨0x1E4, .CMD_OP, 1, .rwT⟩, ⟨0x1E5, .CMD_A0, 1, .rw⟩, ⟨0x1E6, .CMD_A1, 1, .rw⟩]

/-- The output registers of the map (R92). -/
def outputRows : List RegRow := [
  ⟨0x200, .TOPC_OUT, 32, .ro⟩, ⟨0x220, .MACA, 32, .ro⟩, ⟨0x240, .MACS, 32, .ro⟩,
  ⟨0x260, .RES, 32, .ro⟩, ⟨0x280, .CK, 32, .ro⟩, ⟨0x2A0, .IK, 32, .ro⟩,
  ⟨0x2C0, .AK, 6, .ro⟩, ⟨0x2C8, .AKS, 6, .ro⟩,
  ⟨0x2D0, .TOPC_OUT_LEN, 1, .ro⟩, ⟨0x2D1, .MACA_LEN, 1, .ro⟩, ⟨0x2D2, .MACS_LEN, 1, .ro⟩,
  ⟨0x2D3, .RES_LEN, 1, .ro⟩, ⟨0x2D4, .CK_LEN, 1, .ro⟩, ⟨0x2D5, .IK_LEN, 1, .ro⟩,
  ⟨0x2D6, .AK_LEN, 1, .ro⟩, ⟨0x2D7, .AKS_LEN, 1, .ro⟩]

/-- The register map of R92; an address in no row is reserved. -/
def regMap : List RegRow := inputRows ++ controlRows ++ outputRows

/-- The row an address falls in, if it is not reserved (R92). -/
def rowAt (a : Nat) : Option RegRow := regMap.find? fun r => r.base ≤ a && a < r.base + r.bytes

/-- CMD_OP's address, 0x1E4 (R92). -/
def cmdOpAddr : Addr := 0x1E4

/-- Byte `i` of an option register, little-endian (R86). -/
def halfByte (v : Half) (i : Nat) : Byte := if i = 0 then v.extractLsb' 0 8 else v.extractLsb' 8 8

/-- An option register whose byte `i` takes `d` (R86): byte 0 is bits 7:0, byte 1 bits 15:8. -/
def setHalfByte (v : Half) (i : Nat) (d : Byte) : Half :=
  if i = 0 then (v >>> 8) <<< 8 ||| d.setWidth 16 else d.setWidth 16 <<< 8 ||| (v.setWidth 8).setWidth 16

/-- CTRL as the host reads it: DBG_EN in bit 0, the reserved bits 0 (R46). -/
def ctrlByte (dbgEn : Bool) : Byte := if dbgEn then 1 else 0

/-- Byte `i` of a register, every reserved bit 0 (R34, R82). -/
def State.regByte (s : State) (r : Reg) (i : Nat) : Byte :=
  match r with
  | .STATE => byteAt s.stateBuf i
  | .K => byteAt s.k.bytes i
  | .TOP => byteAt s.top.bytes i
  | .TOPC_IN => byteAt s.topcIn.bytes i
  | .RAND => byteAt s.rand.bytes i
  | .SQN => byteAt s.sqn.bytes i
  | .AMF => byteAt s.amf.bytes i
  | .K_LEN => s.k.len
  | .TOP_LEN => s.top.len
  | .TOPC_LEN => s.topcIn.len
  | .RAND_LEN => s.rand.len
  | .SQN_LEN => s.sqn.len
  | .AMF_LEN => s.amf.len
  | .KLENGTH => halfByte s.klength i
  | .MACLENGTH => halfByte s.maclength i
  | .RESLENGTH => halfByte s.reslength i
  | .CKLENGTH => halfByte s.cklength i
  | .IKLENGTH => halfByte s.iklength i
  | .ITER => s.iter
  | .FIELD => byteAt s.field i
  | .TOPC_CACHE => byteAt s.topcCache i
  | .SESS => s.sess.code
  | .ERR => s.err.code
  | .INST => s.inst
  | .CTRL => ctrlByte s.dbgEn
  | .CMD_OP => s.cmdOp
  | .CMD_A0 => s.cmdA0
  | .CMD_A1 => s.cmdA1
  | .TOPC_OUT => byteAt s.topcOut.bytes i
  | .MACA => byteAt s.maca.bytes i
  | .MACS => byteAt s.macs.bytes i
  | .RES => byteAt s.res.bytes i
  | .CK => byteAt s.ck.bytes i
  | .IK => byteAt s.ik.bytes i
  | .AK => byteAt s.ak.bytes i
  | .AKS => byteAt s.aks.bytes i
  | .TOPC_OUT_LEN => s.topcOut.len
  | .MACA_LEN => s.maca.len
  | .MACS_LEN => s.macs.len
  | .RES_LEN => s.res.len
  | .CK_LEN => s.ck.len
  | .IK_LEN => s.ik.len
  | .AK_LEN => s.ak.len
  | .AKS_LEN => s.aks.len

/-- Byte `i` of a field register's bytes takes `d`. -/
def FieldReg.setByte {cap : Nat} (f : FieldReg cap) (i : Nat) (d : Byte) : FieldReg cap :=
  { f with bytes := f.bytes.setIfInBounds i d }

/-- A field register's length takes `d`. -/
def FieldReg.setLen {cap : Nat} (f : FieldReg cap) (d : Byte) : FieldReg cap := { f with len := d }

/-- A host-writable register whose byte `i` takes `d`, reserved bits kept 0 (R46, R83). A register of class RO has
no host write (R50). -/
def State.setRegByte (s : State) (r : Reg) (i : Nat) (d : Byte) : State :=
  match r with
  | .STATE => { s with stateBuf := s.stateBuf.setIfInBounds i d }
  | .K => { s with k := s.k.setByte i d }
  | .TOP => { s with top := s.top.setByte i d }
  | .TOPC_IN => { s with topcIn := s.topcIn.setByte i d }
  | .RAND => { s with rand := s.rand.setByte i d }
  | .SQN => { s with sqn := s.sqn.setByte i d }
  | .AMF => { s with amf := s.amf.setByte i d }
  | .K_LEN => { s with k := s.k.setLen d }
  | .TOP_LEN => { s with top := s.top.setLen d }
  | .TOPC_LEN => { s with topcIn := s.topcIn.setLen d }
  | .RAND_LEN => { s with rand := s.rand.setLen d }
  | .SQN_LEN => { s with sqn := s.sqn.setLen d }
  | .AMF_LEN => { s with amf := s.amf.setLen d }
  | .KLENGTH => { s with klength := setHalfByte s.klength i d }
  | .MACLENGTH => { s with maclength := setHalfByte s.maclength i d }
  | .RESLENGTH => { s with reslength := setHalfByte s.reslength i d }
  | .CKLENGTH => { s with cklength := setHalfByte s.cklength i d }
  | .IKLENGTH => { s with iklength := setHalfByte s.iklength i d }
  | .ITER => { s with iter := d }
  | .FIELD => { s with field := s.field.setIfInBounds i d }
  | .CTRL => { s with dbgEn := d.getLsbD 0 }
  | .CMD_OP => { s with cmdOp := d }
  | .CMD_A0 => { s with cmdA0 := d }
  | .CMD_A1 => { s with cmdA1 := d }
  | .TOPC_CACHE | .SESS | .ERR | .INST => s
  | .TOPC_OUT | .MACA | .MACS | .RES | .CK | .IK | .AK | .AKS => s
  | .TOPC_OUT_LEN | .MACA_LEN | .MACS_LEN | .RES_LEN | .CK_LEN | .IK_LEN | .AK_LEN | .AKS_LEN => s

/-- Whether a host write to a register of this class takes effect now (R34, R49, R50). -/
def writable (c : Access) (sess : Sess) : Bool :=
  match c with
  | .rw => true
  | .rwL => decide (sess = .none)
  | .ro => false
  | .rwT => true

/-- `Read(addr)`: the byte at a host address, 0x00 at a reserved one (R82). -/
def State.readByte (s : State) (a : Addr) : Byte :=
  match rowAt a.toNat with
  | none => 0
  | some row => s.regByte row.reg (a.toNat - row.base)

/-- What `Write(addr, data)` stores, by the class of the register (R83). The command that a CMD_OP write triggers
is not part of it. -/
def State.writeByte (s : State) (a : Addr) (d : Byte) : State :=
  match rowAt a.toNat with
  | none => s
  | some row => if writable row.access s.sess then s.setRegByte row.reg (a.toNat - row.base) d else s

end Sys2Proof.Machine
end

