-- ==== Sys2Proof/Machine/Codec.lean ====
section
/-! DEFINITION. The state codec (R180 to R190) and its three commands (R191 to R193). -/

namespace Sys2Proof.Machine

/-- `newState()`: all 0x00 but the two padding bytes (R180). -/
@[irreducible] def newState : Buf := Vector.ofFn fun p => if p.val = 96 then 0x1F else if p.val = 135 then 0x80 else 0

/-- `pushField(b, off, d)`: `d` at `b[off..off + len(d))`, its last byte at the lowest offset (R182). Every call has
`off + len(d) ≤ 200`. -/
@[irreducible] def pushField (b : Buf) (off : Nat) (d : Bytes) : Buf :=
  Vector.ofFn fun p =>
    if off ≤ p.val ∧ p.val < off + d.length then d.getD (off + d.length - 1 - p.val) 0 else b[p]

/-- `pullField(b, off, n)`: the bytes `b[off..off + n)`, last first (R183). Every call has `off + n ≤ 200`. -/
@[irreducible] def pullField (b : Buf) (off n : Nat) : Bytes := ((b.toList.drop off).take n).reverse

/-- A field packed if it is present (R190). -/
def pushIf (b : Buf) (off : Nat) : Option Bytes → Buf
  | none => b
  | some d => pushField b off d

/-- The 7 bytes of "TUAK1.0" (R187). -/
def algoBytes : Bytes := [0x54, 0x55, 0x41, 0x4B, 0x31, 0x2E, 0x30]

/-- `AssembleState(first, inst, rand, amf, sqn, k)` (R190), at the offsets of R185. -/
def assembleState (first : Bytes) (inst : Byte) (rand amf sqn : Option Bytes) (k : Bytes) : Buf :=
  let b0 := pushField newState 0 first
  let b1 := pushField b0 32 [inst]
  let b2 := pushField b1 33 algoBytes
  let b3 := pushIf b2 40 rand
  let b4 := pushIf b3 56 amf
  let b5 := pushIf b4 58 sqn
  pushField b5 64 k

/-- The bounds of PUSH_FIELD and PULL_FIELD, over natural numbers (R192, R193). -/
def fieldFits (off len : Byte) : Bool := decide (len.toNat ≤ 32 ∧ off.toNat + len.toNat ≤ 200)

/-- STATE_INIT (R191). -/
def execStateInit (s : State) : Host.Outcome State Fault Refusal :=
  .next { s with stateBuf := newState }.done

/-- PUSH_FIELD (R192). -/
def execPushField (off len : Byte) (s : State) : Host.Outcome State Fault Refusal :=
  if fieldFits off len then
    .next { s with stateBuf := pushField s.stateBuf off.toNat (firstBytes s.field len.toNat) }.done
  else .next (s.raise .invalidParameter)

/-- PULL_FIELD (R193). -/
def execPullField (off len : Byte) (s : State) : Host.Outcome State Fault Refusal :=
  if fieldFits off len then
    .next { s with field := fill 32 (pullField s.stateBuf off.toNat len.toNat) }.done
  else .next (s.raise .invalidParameter)

end Sys2Proof.Machine
end

