-- ==== Sys2Proof/Machine/Permutation.lean ====
section
/-! DEFINITION. The permutation engine: Keccak-f[1600] (R140 to R153) and the PERMUTE command (R154). -/

namespace Sys2Proof.Machine

/-- Byte `b[p]` at bit `8 k` of a lane: `zext_64(b[p]) << (8 k)` (R84). -/
def laneByte (b : Buf) (p k : Nat) : Lane := (byteAt b p).setWidth 64 <<< (8 * k)

/-- Lane `i` of a buffer: the little-endian value of bytes `8 i` to `8 i + 7` (R84). The eight terms share no bit, so
joining them is the sum of R84. -/
def lane (b : Buf) (i : Nat) : Lane :=
  laneByte b (8 * i) 0 ||| laneByte b (8 * i + 1) 1 ||| laneByte b (8 * i + 2) 2 ||| laneByte b (8 * i + 3) 3 |||
    laneByte b (8 * i + 4) 4 ||| laneByte b (8 * i + 5) 5 ||| laneByte b (8 * i + 6) 6 ||| laneByte b (8 * i + 7) 7

/-- `A[x, y]`, coordinates modulo 5; lane number `i` is `A[i mod 5, i div 5]` (R14, R141). -/
def laneAt (a : Lanes) (x y : Nat) : Lane :=
  a[x % 5 + 5 * (y % 5)]'(by omega)

/-- The array whose `A[x, y]` is `f x y`. -/
def lanesOf (f : Nat → Nat → Lane) : Lanes := Vector.ofFn fun i => f (i.val % 5) (i.val / 5)

/-- The lane array of a buffer (R140, R141). -/
def loadLanes (b : Buf) : Lanes := Vector.ofFn fun i => lane b i.val

/-- The buffer of a lane array, little-endian: byte `8 i + k` is bits `8 k + 7 : 8 k` of lane `i` (R149). -/
def storeLanes (a : Lanes) : Buf :=
  Vector.ofFn fun p => (a[p.val / 8]'(by have := p.isLt; omega)).extractLsb' (8 * (p.val % 8)) 8

/-- `C[x]`, the parity of column `x` (R143). -/
def parity (a : Lanes) (x : Nat) : Lane :=
  laneAt a x 0 ^^^ laneAt a x 1 ^^^ laneAt a x 2 ^^^ laneAt a x 3 ^^^ laneAt a x 4

/-- theta (R143). -/
def theta (a : Lanes) : Lanes :=
  let col : Vector Lane 5 := Vector.ofFn fun x => parity a x.val
  let diff : Vector Lane 5 := Vector.ofFn fun x =>
    col[(x.val + 4) % 5] ^^^ col[(x.val + 1) % 5].rotateLeft 1
  lanesOf fun x y => laneAt a x y ^^^ diff[x % 5]

/-- The rotation offsets `r[x, y]` by lane number (R144). -/
def rhoOffsets : Vector Nat 25 :=
  #v[0, 1, 62, 28, 27, 36, 44, 6, 55, 20, 3, 10, 43, 25, 39, 41, 45, 15, 21, 8, 18, 2, 61, 56, 14]

/-- rho (R144). -/
def rho (a : Lanes) : Lanes := Vector.ofFn fun i => a[i].rotateLeft rhoOffsets[i]

/-- pi: `A'[X, Y] = A[(X + 3 Y) mod 5, X]` (R145). -/
def piStep (a : Lanes) : Lanes := lanesOf fun x y => laneAt a (x + 3 * y) x

/-- chi (R146). -/
def chi (a : Lanes) : Lanes :=
  lanesOf fun x y => laneAt a x y ^^^ (~~~ laneAt a (x + 1) y &&& laneAt a (x + 2) y)

/-- iota, with the round's constant (R147). -/
def iota (c : Lane) (a : Lanes) : Lanes := a.set 0 (a[0] ^^^ c)

/-- The table of R147, a row a line of it: `(RC[n], RC[n + 12])` for `n` in 0..11. -/
def roundConstantRows : Vector (Lane × Lane) 12 := #v[
  (0x0000000000000001, 0x000000008000808B), (0x0000000000008082, 0x800000000000008B),
  (0x800000000000808A, 0x8000000000008089), (0x8000000080008000, 0x8000000000008003),
  (0x000000000000808B, 0x8000000000008002), (0x0000000080000001, 0x8000000000000080),
  (0x8000000080008081, 0x000000000000800A), (0x8000000000008009, 0x800000008000000A),
  (0x000000000000008A, 0x8000000080008081), (0x0000000000000088, 0x8000000000008080),
  (0x0000000080008009, 0x0000000080000001), (0x000000008000000A, 0x8000000080008008)]

/-- The round constants `RC[0]` to `RC[23]`: the left column of R147's table, then its right column. -/
def roundConstants : Vector Lane 24 := roundConstantRows.map Prod.fst ++ roundConstantRows.map Prod.snd

/-- One round, with its constant (R142). -/
def keccakRound (a : Lanes) (c : Lane) : Lanes := iota c (chi (piStep (rho (theta a))))

/-- The 24 rounds, in order of the round index, none skipped (R140, R142, R151). -/
def rounds (a : Lanes) : Lanes := roundConstants.toList.foldl keccakRound a

/-- The permutation of a 200-byte buffer (R140). -/
@[irreducible] def permute (b : Buf) : Buf := storeLanes (rounds (loadLanes b))

/-- PERMUTE (R154). -/
def execPermute (len : Byte) (s : State) : Host.Outcome State Fault Refusal :=
  if len.toNat ≠ 200 then .next (s.raise .invalidLength)
  else .next { s with stateBuf := permute s.stateBuf }.done

end Sys2Proof.Machine
end

