-- ==== Sys2Proof/Machine/Selector.lean ====
section
/-! DEFINITION. The selector of the one-byte configuration code (R210 to R219) and the INSTANCE command (R220). -/

namespace Sys2Proof.Machine

/-- `IBIT(i) = 1 << (7 - i)` (R12). -/
def ibit (i : Nat) : Byte := 1#8 <<< (7 - i)

/-- The key-length flag: `IBIT(7)` for a 256-bit K, else 0 (R211). -/
def keyFlag (kbits : Nat) : Byte := if kbits = 256 then ibit 7 else 0

/-- The MAC-length code, for a legal length (R214). -/
def macCode (bits : Nat) : Option Byte :=
  match bits with
  | 64 => some 0x08
  | 128 => some 0x10
  | 256 => some 0x20
  | _ => none

/-- The RES-length code, for a legal length (R216). -/
def resCode (bits : Nat) : Option Byte :=
  match bits with
  | 32 => some 0x00
  | 64 => some 0x08
  | 128 => some 0x10
  | 256 => some 0x20
  | _ => none

/-- The code of CKLENGTH or IKLENGTH at its bit: 0 for 128, the bit for 256 (R215, R217). -/
def sessionKeyCode (bits i : Nat) : Option Byte :=
  match bits with
  | 128 => some 0
  | 256 => some (ibit i)
  | _ => none

/-- `ResolveKBits()`: the key bit-length, from K_LEN and KLENGTH (R218). -/
def resolveKBits (s : State) : Except Err Nat :=
  let n := s.k.len.toNat
  if n ≠ 16 ∧ n ≠ 32 then .error .invalidParameter
  else if s.klength.toNat ≠ 0 ∧ s.klength.toNat ≠ 8 * n then .error .invalidParameter
  else .ok (8 * n)

/-- F1's and F1*'s byte: star flag, MAC code, key flag (R213). -/
def macInstByte (star : Byte) (bits kbits : Nat) : Except Err Byte :=
  match macCode bits with
  | none => .error .invalidParameter
  | some m => .ok (star ||| m ||| keyFlag kbits)

/-- F2345's byte (R215). -/
def keysInstByte (res ck ik kbits : Nat) : Except Err Byte :=
  match resCode res, sessionKeyCode ck 5, sessionKeyCode ik 6 with
  | some r, some c, some i => .ok (ibit 1 ||| r ||| c ||| i ||| keyFlag kbits)
  | _, _, _ => .error .invalidParameter

/-- `Instance(sel, kbits)` (R219). -/
def instByte (fam : Family) (kbits : Nat) (s : State) : Except Err Byte :=
  match fam with
  | .topc => .ok (keyFlag kbits)
  | .f1 => macInstByte 0 s.maclength.toNat kbits
  | .f1star => macInstByte (ibit 0) s.maclength.toNat kbits
  | .f2345 => keysInstByte s.reslength.toNat s.cklength.toNat s.iklength.toNat kbits
  | .f5star => .ok (ibit 0 ||| ibit 1 ||| keyFlag kbits)

/-- The checks of a family and its byte: key length first, then the family's lengths (R220, R304). -/
def resolveInst (fam : Family) (s : State) : Except Err Byte :=
  match resolveKBits s with
  | .error e => .error e
  | .ok kbits => instByte fam kbits s

/-- INSTANCE (R220). A selector above 4 has no word; its decode error is raised here too, so that the meaning is
total on terms. -/
def execSelectInst (sel : Byte) (s : State) : Host.Outcome State Fault Refusal :=
  match familyOfCode sel with
  | none => .next (s.raise .illegalCommand)
  | some fam => s.endWith (fun v => { s with inst := v }.done) (resolveInst fam s)

end Sys2Proof.Machine
end

