-- ==== Sys2Proof/Machine/Driver.lean ====
section
/-! DEFINITION. The algorithm driver: iteration, TOPc derivation, the F-command prologue and epilogue (R240, R243,
R244, R246, R247), and the commands R241, R242, R245, R248 to R252. -/

namespace Sys2Proof.Machine

/-- The loop of `Iterate`: `n` more applications, the next one with index `j`, a debug event after each (R243). -/
def iterLoop (label : Family) : (n j : Nat) → Buf → State → Buf × State
  | 0, _, b, s => (b, s)
  | n + 1, j, b, s =>
    let b' := permute b
    iterLoop label n (j + 1) b' (s.emit ⟨label, BitVec.ofNat 8 j, b'⟩)

/-- `Iterate(b, label)`: the pre-permutation event, then ITER applications (R243). -/
def iterate (label : Family) (b : Buf) (s : State) : Buf × State :=
  iterLoop label s.iter.toNat 1 b (s.emit ⟨label, 0, b⟩)

/-- The assembled state of the TOPc derivation: TOP and K, no RAND, AMF or SQN (R244, R247). -/
def topcBlock (kbits : Nat) (s : State) : Buf :=
  assembleState s.topValue (keyFlag kbits) none none none s.keyValue

/-- `DeriveTOPc(kbits)`, and the state with its debug events (R244). -/
def deriveTopc (kbits : Nat) (s : State) : Bytes × State :=
  let r := iterate .topc (topcBlock kbits s) s
  (pullField r.1 0 32, r.2)

/-- The assembled state of F1 and F1*: RAND, AMF and SQN (R247). -/
def macBlock (inst : Byte) (s : State) : Buf :=
  assembleState s.topcCache.toList inst (some s.randValue) (some s.amfValue) (some s.sqnValue) s.keyValue

/-- The assembled state of F2345 and F5*: RAND, no AMF or SQN (R247). -/
def randBlock (inst : Byte) (s : State) : Buf :=
  assembleState s.topcCache.toList inst (some s.randValue) none none s.keyValue

/-- The TOPc resolution of an F-command: on an UNINITIALIZED session TOPc is derived and cached (R246). -/
def resolveTopc (kbits : Nat) (s : State) : State :=
  if s.sess = .uninitialized then
    let r := deriveTopc kbits s
    { r.2 with topcCache := fill 32 r.1, sess := .topcResolved }
  else s

/-- Whether a family packs SQN and AMF, and so checks their lengths (R246, R247). -/
def packsSqnAmf (fam : Family) : Bool := decide (fam = .f1 ∨ fam = .f1star)

/-- `FBegin(sel)`: the checks in order, then the TOPc resolution (R246). -/
def fBegin (fam : Family) (s : State) : Except Err (Byte × State) :=
  if s.sess = .none then .error .sequence
  else match resolveKBits s with
  | .error e => .error e
  | .ok kbits => match instByte fam kbits s with
    | .error e => .error e
    | .ok inst =>
      if s.rand.len.toNat ≠ 16 then .error .invalidParameter
      else if packsSqnAmf fam ∧ (s.sqn.len.toNat ≠ 6 ∨ s.amf.len.toNat ≠ 2) then .error .invalidParameter
      else .ok (inst, resolveTopc kbits s)

/-- `FEnd()`: SESS is READY and ERR is OK (R246). -/
def State.fEnd (s : State) : State := { s with sess := .ready, err := .ok }

/-- The body of F1 after its prologue (R248). -/
def runF1 (inst : Byte) (s : State) : State :=
  let r := iterate .f1 (macBlock inst s) s
  { r.2 with maca := writeOut 32 (pullField r.1 0 (s.maclength.toNat / 8)) }.fEnd

/-- The body of F1STAR after its prologue (R249). -/
def runF1Star (inst : Byte) (s : State) : State :=
  let r := iterate .f1star (macBlock inst s) s
  { r.2 with macs := writeOut 32 (pullField r.1 0 (s.maclength.toNat / 8)) }.fEnd

/-- The body of F2345 after its prologue (R250). -/
def runF2345 (inst : Byte) (s : State) : State :=
  let r := iterate .f2345 (randBlock inst s) s
  { r.2 with
    res := writeOut 32 (pullField r.1 0 (s.reslength.toNat / 8))
    ck := writeOut 32 (pullField r.1 32 (s.cklength.toNat / 8))
    ik := writeOut 32 (pullField r.1 64 (s.iklength.toNat / 8))
    ak := writeOut 6 (pullField r.1 96 6) }.fEnd

/-- The body of F5STAR after its prologue (R251). -/
def runF5Star (inst : Byte) (s : State) : State :=
  let r := iterate .f5star (randBlock inst s) s
  { r.2 with aks := writeOut 6 (pullField r.1 96 6) }.fEnd

/-- The checks of SESSION_INIT, in order (R241, R304). -/
def sessionChecks (s : State) : Except Err Unit :=
  if s.sess ≠ .none then .error .sequence
  else match resolveKBits s with
  | .error e => .error e
  | .ok _ =>
    if s.top.len.toNat = 0 ∧ s.topcIn.len.toNat = 0 then .error .missingInput
    else if s.topcIn.len.toNat ≠ 0 ∧ s.topcIn.len.toNat ≠ 32 then .error .invalidParameter
    else if s.topcIn.len.toNat = 0 ∧ s.top.len.toNat ≠ 32 then .error .invalidParameter
    else if s.rand.len.toNat ≠ 16 ∨ s.sqn.len.toNat ≠ 6 ∨ s.amf.len.toNat ≠ 2 then .error .invalidParameter
    else if s.iter.toNat = 0 then .error .invalidParameter
    else .ok ()

/-- A session opened: READY from a precomputed TOPc, else UNINITIALIZED (R241). -/
def openSession (s : State) : State :=
  if s.topcIn.len.toNat = 32 then { s with topcCache := s.topcIn.bytes, sess := .ready }
  else { s with sess := .uninitialized }

/-- The checks of COMPUTE_TOPC, in order (R245, R304); they give the key bit-length. -/
def topcChecks (s : State) : Except Err Nat :=
  match resolveKBits s with
  | .error e => .error e
  | .ok kbits =>
    if s.top.len.toNat ≠ 32 then .error .invalidParameter
    else if s.iter.toNat = 0 then .error .invalidParameter
    else .ok kbits

/-- The body of COMPUTE_TOPC after its checks (R245). -/
def runComputeTopc (kbits : Nat) (s : State) : State :=
  let r := deriveTopc kbits s
  { r.2 with topcOut := writeOut 32 r.1 }.done

/-- SESSION_INIT (R241). -/
def execSessionInit (s : State) : Host.Outcome State Fault Refusal :=
  s.endWith (fun _ => (openSession s).done) (sessionChecks s)

/-- SESSION_CLOSE (R242). -/
def execSessionClose (s : State) : Host.Outcome State Fault Refusal :=
  .next { s with sess := .none, topcCache := zeros 32 }.done

/-- COMPUTE_TOPC (R245). -/
def execComputeTopc (s : State) : Host.Outcome State Fault Refusal :=
  s.endWith (fun kbits => runComputeTopc kbits s) (topcChecks s)

/-- F1 (R248). -/
def execF1 (s : State) : Host.Outcome State Fault Refusal :=
  s.endWith (fun p => runF1 p.1 p.2) (fBegin .f1 s)

/-- F1STAR (R249). -/
def execF1Star (s : State) : Host.Outcome State Fault Refusal :=
  s.endWith (fun p => runF1Star p.1 p.2) (fBegin .f1star s)

/-- F2345 (R250). -/
def execF2345 (s : State) : Host.Outcome State Fault Refusal :=
  s.endWith (fun p => runF2345 p.1 p.2) (fBegin .f2345 s)

/-- F5STAR (R251). -/
def execF5Star (s : State) : Host.Outcome State Fault Refusal :=
  s.endWith (fun p => runF5Star p.1 p.2) (fBegin .f5star s)

/-- NOP (R252). -/
def execNop (s : State) : Host.Outcome State Fault Refusal := .next s.done

end Sys2Proof.Machine
end

