-- ==== Sys2Proof/Machine/Dispatch.lean ====
section
/-! DEFINITION. The dispatch of a decoded command to its meaning (R113, R114), one arm per constructor. -/

namespace Sys2Proof.Machine

def exec (i : Instr) (s : State) : Host.Outcome State Fault Refusal :=
  match i with
  | .nop => Sys2Proof.Machine.execNop s
  | .stateInit => Sys2Proof.Machine.execStateInit s
  | .permute len => Sys2Proof.Machine.execPermute len s
  | .pushField off len => Sys2Proof.Machine.execPushField off len s
  | .pullField off len => Sys2Proof.Machine.execPullField off len s
  | .selectInst sel => Sys2Proof.Machine.execSelectInst sel s
  | .sessionInit => Sys2Proof.Machine.execSessionInit s
  | .sessionClose => Sys2Proof.Machine.execSessionClose s
  | .computeTopc => Sys2Proof.Machine.execComputeTopc s
  | .f1 => Sys2Proof.Machine.execF1 s
  | .f1star => Sys2Proof.Machine.execF1Star s
  | .f2345 => Sys2Proof.Machine.execF2345 s
  | .f5star => Sys2Proof.Machine.execF5Star s

end Sys2Proof.Machine
end

