-- ==== Sys2Proof/Machine/HostPort.lean ====
section
/-! DEFINITION. The host port: one transaction at a time (R81, R93), the command a CMD_OP write issues (R110, R114),
and how a command comes to be the machine's next one. `step` calls `hostStep` and nothing else. -/

namespace Sys2Proof.Machine

/-- The engine's turn inside a CMD_OP write: decode the word the three command registers hold, then execute it, or
raise ILLEGAL_COMMAND (R110, R114, R115). -/
def issue (s : State) : Host.Outcome State Fault Refusal :=
  match decode s.commandWord with
  | .ok i => exec i s
  | .error _ => .next (s.raise .illegalCommand)

/-- One host transaction, complete with all its effects (R82, R83, R93, R340, R342, R354). -/
def transact (r : HostReq) (s : State) : Host.Outcome State Fault Refusal :=
  match r with
  | .read a => .next { s with readData := s.readData ++ [s.readByte a] }
  | .write a d => if a = cmdOpAddr then issue (s.writeByte a d) else .next (s.writeByte a d)
  | .reset => .next s.resetBlock
  | .interruptedCommand _ => .next s.resetBlock

/-- One step: the host's next transaction. With none to come the block waits, unchanged (R30, R341); SESS =
TOPC_RESOLVED at a transaction is outside the specification (R43, 93_implementation_defined.md U6). -/
def hostStep (s : State) : Host.Outcome State Fault Refusal :=
  match s.port with
  | [] => .next s
  | r :: rest =>
    if s.sess = .topcResolved then .refused .topcResolvedVisible
    else transact r { s with port := rest }

/-- The state whose next transaction issues the word `w`: CMD_A0 and CMD_A1 hold its arguments, and the CMD_OP write
of its opcode comes first at the port (R110). -/
def State.withCommand (s : State) (w : CmdWord) : State :=
  { s with cmdA0 := a0Field w, cmdA1 := a1Field w, port := .write cmdOpAddr (opField w) :: s.port }

/-- The three transactions of `CMD` for a word: both arguments, then the opcode (R120). -/
def cmdRequests (w : CmdWord) : List HostReq :=
  [.write 0x1E5 (a0Field w), .write 0x1E6 (a1Field w), .write cmdOpAddr (opField w)]

end Sys2Proof.Machine
end

