-- ==== Sys2Proof/Machine/Step.lean ====
section
/-! DEFINITION. The step function, and a command placed where the next step takes it. -/

namespace Sys2Proof.Machine

/-- One step of the machine: one host transaction. -/
def step (s : State) : Host.Outcome State Fault Refusal := hostStep s

/-- The state whose next step issues the command a row of spec/opcode_table.json stands for. -/
def State.withFetchWord (s : State) (nbits w : Nat) : State := s.withCommand (tableWord nbits w)

end Sys2Proof.Machine
end

