-- ==== Sys2Proof/Safety.lean ====
section
/-! DEFINITION. The terms claims are stated in: when a command's inputs are legal, the values a derivation gives and
the events it emits, the host addresses a command may write, and the invariant of the states between host
transactions. -/

namespace Sys2Proof.Machine

/-! ## Legal inputs -/

/-- K_LEN and KLENGTH pass `ResolveKBits` (R218). -/
abbrev State.keyOk (s : State) : Prop :=
  (s.k.len.toNat = 16 ∨ s.k.len.toNat = 32) ∧
    (s.klength.toNat = 0 ∨ s.klength.toNat = 8 * s.k.len.toNat)

/-- The lengths every session has checked: K, RAND, SQN, AMF and ITER (R241). -/
abbrev State.inputsOk (s : State) : Prop :=
  s.keyOk ∧ s.rand.len.toNat = 16 ∧ s.sqn.len.toNat = 6 ∧ s.amf.len.toNat = 2 ∧ s.iter.toNat ≠ 0

/-- MACLENGTH is legal (R217). -/
abbrev State.macOk (s : State) : Prop :=
  s.maclength.toNat = 64 ∨ s.maclength.toNat = 128 ∨ s.maclength.toNat = 256

/-- RESLENGTH, CKLENGTH and IKLENGTH are legal (R217). -/
abbrev State.keysOk (s : State) : Prop :=
  (s.reslength.toNat = 32 ∨ s.reslength.toNat = 64 ∨ s.reslength.toNat = 128 ∨ s.reslength.toNat = 256) ∧
    (s.cklength.toNat = 128 ∨ s.cklength.toNat = 256) ∧
    (s.iklength.toNat = 128 ∨ s.iklength.toNat = 256)

/-- The output lengths a family reads are legal (R217, R219). -/
def State.lengthsOk (s : State) : Family → Prop
  | .topc => True
  | .f1 => s.macOk
  | .f1star => s.macOk
  | .f2345 => s.keysOk
  | .f5star => True

/-! ## Values and events of a derivation -/

/-- `permute` applied ITER times (R243, R256). -/
def State.iterated (s : State) (b : Buf) : Buf := permute^[s.iter.toNat] b

/-- The TOPc of the input registers (R244). -/
def State.derivedTopc (s : State) : Bytes :=
  pullField (s.iterated (topcBlock (8 * s.k.len.toNat) s)) 0 32

/-- The events of one derivation on the assembled state `b`, indices 0 to ITER (R243, R312). -/
def State.derivationEvents (s : State) (label : Family) (b : Buf) : List DbgEvent :=
  if s.dbgEn then
    (List.range (s.iter.toNat + 1)).map fun j => ⟨label, BitVec.ofNat 8 j, permute^[j] b⟩
  else []

/-- An UNINITIALIZED session whose TOPc has been derived and cached, its events emitted (R246). -/
def State.topcResolved (s : State) : State :=
  { s with
    topcCache := fill 32 s.derivedTopc
    sess := .ready
    dbg := s.dbg ++ s.derivationEvents .topc (topcBlock (8 * s.k.len.toNat) s) }

/-! ## Second forms of the spec's tables -/

/-- The words of R115: an unassigned opcode, a nonzero argument that must be zero, or a selector above 4. -/
abbrev illegalWord (op a0 a1 : Nat) : Prop :=
  (0x06 ≤ op ∧ op ≤ 0x0F) ∨ 0x17 ≤ op ∨
    (op ∈ [0x00, 0x01, 0x10, 0x11, 0x12, 0x13, 0x14, 0x15, 0x16] ∧ (a0 ≠ 0 ∨ a1 ≠ 0)) ∨
    (op = 0x02 ∧ a1 ≠ 0) ∨ (op = 0x05 ∧ (a1 ≠ 0 ∨ 5 ≤ a0))

/-- The host address of byte `i` of the register that starts at `base` (R92). -/
abbrev regAddr (base i : Nat) : Addr := BitVec.ofNat 10 (base + i)

/-- The reserved host addresses: those in no row of R92. -/
abbrev reservedAddr (a : Nat) : Prop :=
  (0x0C8 ≤ a ∧ a ≤ 0x0FF) ∨ (0x178 ≤ a ∧ a ≤ 0x17F) ∨ (0x186 ≤ a ∧ a ≤ 0x187) ∨ (0x193 ≤ a ∧ a ≤ 0x19F) ∨
    (0x1E7 ≤ a ∧ a ≤ 0x1FF) ∨ (0x2C6 ≤ a ∧ a ≤ 0x2C7) ∨ (0x2CE ≤ a ∧ a ≤ 0x2CF) ∨ (0x2D8 ≤ a ∧ a ≤ 0x3FF)

/-- The addresses of the RO registers of R92. -/
abbrev readOnlyAddr (a : Nat) : Prop :=
  (0x1C0 ≤ a ∧ a ≤ 0x1E2) ∨ (0x200 ≤ a ∧ a ≤ 0x2C5) ∨ (0x2C8 ≤ a ∧ a ≤ 0x2CD) ∨ (0x2D0 ≤ a ∧ a ≤ 0x2D7)

/-- The addresses of the RW-L registers of R92. -/
abbrev lockedAddr (a : Nat) : Prop :=
  (0x100 ≤ a ∧ a ≤ 0x177) ∨ (0x180 ≤ a ∧ a ≤ 0x185) ∨ (0x188 ≤ a ∧ a ≤ 0x192)

/-- The addresses of the RW registers of R92 that keep every bit written: all but CTRL. -/
abbrev plainAddr (a : Nat) : Prop :=
  a ≤ 0x0C7 ∨ (0x1A0 ≤ a ∧ a ≤ 0x1BF) ∨ (0x1E5 ≤ a ∧ a ≤ 0x1E6)

/-- The rotation offsets of R144 as the table prints them, a row per `y`. -/
def rhoRows : List (List Nat) :=
  [[0, 1, 62, 28, 27], [36, 44, 6, 55, 20], [3, 10, 43, 25, 39], [41, 45, 15, 21, 8], [18, 2, 61, 56, 14]]

/-- The source lanes of R145, by destination lane. -/
def piSources : List Nat :=
  [0, 6, 12, 18, 24, 3, 9, 10, 16, 22, 1, 7, 13, 19, 20, 4, 5, 11, 17, 23, 2, 8, 14, 15, 21]

/-- PILN of R150. -/
def piln : List Nat := [10, 7, 11, 17, 18, 3, 5, 16, 8, 21, 24, 4, 15, 23, 19, 13, 12, 2, 20, 14, 22, 9, 6, 1]

/-- ROTC of R150. -/
def rotc : List Nat := [1, 3, 6, 10, 15, 21, 28, 36, 45, 55, 2, 14, 27, 41, 56, 8, 25, 43, 62, 18, 39, 61, 20, 44]

/-- One turn of the loop of R150, on the array and the lane `t` carried along. -/
def rhoPiTurn (p : Lanes × Lane) (jr : Nat × Nat) : Lanes × Lane :=
  (p.1.setIfInBounds jr.1 (p.2.rotateLeft jr.2), p.1[jr.1]?.getD 0)

/-- The in-place loop of R150. -/
def seqRhoPi (a : Lanes) : Lanes := ((piln.zip rotc).foldl rhoPiTurn (a, a[1])).1

/-- One shift of the register of R148, 9 bits wide, with its feedback. -/
def lfsrShift (r : BitVec 9) : BitVec 9 :=
  if (r <<< 1).getLsbD 8 then (r <<< 1) ^^^ 0x171 else r <<< 1

/-- `rc(t)` of R148. -/
def lfsrBit (t : Nat) : Bool := (lfsrShift^[t % 255] 1).getLsbD 0

/-- The round constant of R148's sum. -/
def lfsrConstant (ir : Nat) : Lane :=
  (List.range 7).foldl (fun c j => c + (if lfsrBit (j + 7 * ir) then (1 : Lane) <<< (2 ^ j - 1) else 0)) 0

/-! ## What a command may write -/

/-- The four F-commands, with their families (R246). -/
def Family.command : Family → Option Instr
  | .topc => none
  | .f1 => some .f1
  | .f1star => some .f1star
  | .f2345 => some .f2345
  | .f5star => some .f5star

/-- Whether host address `a` lies in the `n` bytes from `base`. -/
def within (base n a : Nat) : Bool := decide (base ≤ a ∧ a < base + n)

/-- The host addresses whose byte a command may change (R57, R191 to R193, R220, R241 to R251): ERR at 0x1E1 always;
SESS at 0x1E0 and TOPC_CACHE at 0x1C0 for the commands of R57; the command's own results. -/
def mayWrite (i : Instr) (a : Nat) : Bool :=
  within 0x1E1 1 a ||
    match i with
    | .nop => false
    | .stateInit => within 0x000 200 a
    | .permute _ => within 0x000 200 a
    | .pushField off len => within off.toNat len.toNat a
    | .pullField _ _ => within 0x1A0 32 a
    | .selectInst _ => within 0x1E2 1 a
    | .sessionInit => within 0x1E0 1 a || within 0x1C0 32 a
    | .sessionClose => within 0x1E0 1 a || within 0x1C0 32 a
    | .computeTopc => within 0x200 32 a || within 0x2D0 1 a
    | .f1 => within 0x1E0 1 a || within 0x1C0 32 a || within 0x220 32 a || within 0x2D1 1 a
    | .f1star => within 0x1E0 1 a || within 0x1C0 32 a || within 0x240 32 a || within 0x2D2 1 a
    | .f2345 => within 0x1E0 1 a || within 0x1C0 32 a || within 0x260 96 a || within 0x2C0 6 a ||
        within 0x2D3 4 a
    | .f5star => within 0x1E0 1 a || within 0x1C0 32 a || within 0x2C8 6 a || within 0x2D7 1 a

/-! ## The invariant -/

/-- An output register holds one of its lengths, 0 before the first write, and 0x00 past it (R48, R254). -/
abbrev FieldReg.outOk {cap : Nat} (f : FieldReg cap) (lens : List Nat) : Prop :=
  f.len.toNat ∈ lens ∧ ∀ i : Fin cap, f.len.toNat ≤ i.val → f.bytes[i] = 0

/-- Every output register is `outOk` at its legal lengths (R186, R254). -/
abbrev State.outputsOk (s : State) : Prop :=
  s.topcOut.outOk [0, 32] ∧ s.maca.outOk [0, 8, 16, 32] ∧ s.macs.outOk [0, 8, 16, 32] ∧
    s.res.outOk [0, 4, 8, 16, 32] ∧ s.ck.outOk [0, 16, 32] ∧ s.ik.outOk [0, 16, 32] ∧
    s.ak.outOk [0, 6] ∧ s.aks.outOk [0, 6]

/-- The TOPc of a session: the supplied one, or the one its TOP derives (R42, R241, R244). -/
def State.sessionTopc (s : State) : Vector Byte 32 :=
  if s.topcIn.len.toNat = 32 then s.topcIn.bytes else fill 32 s.derivedTopc

/-- A session's cache and inputs (R49, R51, R54): without a TOPc the cache is all 0x00; TOPC_RESOLVED is never seen;
while a session exists its locked inputs are legal; an UNINITIALIZED session was built from TOP; and a READY one
caches its TOPc. -/
abbrev State.sessionOk (s : State) : Prop :=
  (s.sess = .none ∨ s.sess = .uninitialized → s.topcCache = zeros 32) ∧
    s.sess ≠ .topcResolved ∧
    (s.sess ≠ .none → s.inputsOk ∧
      (s.topcIn.len.toNat = 32 ∨ (s.topcIn.len.toNat = 0 ∧ s.top.len.toNat = 32))) ∧
    (s.sess = .uninitialized → s.topcIn.len.toNat = 0) ∧
    (s.sess = .ready → s.topcCache = s.sessionTopc)

/-- The invariant of the states between host transactions. -/
abbrev State.Inv (s : State) : Prop := s.sessionOk ∧ s.outputsOk

end Sys2Proof.Machine
end

