-- ==== Sys2Proof/Certificates/Slice0/Obligations.lean ====
section
/-! DEFINITION. The statements for the provers, each formalising numbered rules of spec/ (OBLIGATIONS.json lists them
with the rules they cite). A statement about a host transaction takes the port's first transaction as a premise, and
excludes SESS = TOPC_RESOLVED, which `InvKeptByEveryStep` and `ResetMeetsInv` show no run from reset reaches. -/

open Sys2Proof Sys2Proof.Machine

/-! ## Command words -/

/-- Every well-formed command decodes from the word it encodes to, with every operand (R110 to R114). -/
def Obligations.DecodeOfEncodeIsIdentity : Prop :=
  ∀ i : Instr, i.wellFormed = true → decode (encode i) = .ok i

/-- A word decodes to one command, well-formed, whose word it is: no bit of a legal word is ignored (R114 to R116). -/
def Obligations.EncodeOfDecodeIsIdentity : Prop :=
  ∀ (w : CmdWord) (i : Instr), decode w = .ok i → i.wellFormed = true ∧ encode i = w

/-- The words of R115, and no others, are illegal: each raises ILLEGAL_COMMAND and changes nothing else, and every
other word executes the command it encodes. -/
def Obligations.IllegalWordsRaiseAndOthersExecute : Prop :=
  ∀ s : State,
    (illegalWord s.cmdOp.toNat s.cmdA0.toNat s.cmdA1.toNat → issue s = .next { s with err := .illegalCommand }) ∧
    (¬ illegalWord s.cmdOp.toNat s.cmdA0.toNat s.cmdA1.toNat →
      ∃ i : Instr, i.wellFormed = true ∧ encode i = s.commandWord ∧ issue s = exec i s)

/-- Words written out from the encodings of R111 and R113, one of each format and of each family of commands, and one
word for each reason of R115. -/
def Obligations.SpecWordsDecodeAsListed : Prop :=
  decode 0x000001#24 = .ok .stateInit ∧
  decode 0x00C802#24 = .ok (.permute 200) ∧
  decode 0x102803#24 = .ok (.pushField 40 16) ∧
  decode 0x016004#24 = .ok (.pullField 96 1) ∧
  decode 0x000205#24 = .ok (.selectInst 2) ∧
  decode 0x000012#24 = .ok .computeTopc ∧
  decode 0x000015#24 = .ok .f2345 ∧
  decode 0x01C802#24 = .error .nonzeroArgument ∧
  decode 0x000505#24 = .error .selectorRange ∧
  decode 0x000017#24 = .error .unassignedOpcode

/-! ## The host port -/

/-- A CMD_OP write stores its byte and, when the three command bytes decode, runs exactly that command on the state so
left (R47, R83, R110). The same for a command placed at the port by `withFetchWord`. The port's list of transactions
is the model's own (assumptions 1 and 3). -/
def Obligations.StepRunsDecodedCommand : Prop :=
  (∀ (s : State) (d : Byte) (rest : List HostReq) (i : Instr),
    s.port = .write 0x1E4 d :: rest → s.sess ≠ .topcResolved →
    decode (cmdWord d s.cmdA0 s.cmdA1) = .ok i →
    step s = exec i { s with port := rest, cmdOp := d }) ∧
  (∀ (s : State) (nbits w : Nat) (i : Instr),
    s.sess ≠ .topcResolved → decodeTableWord nbits w = some i →
    step (s.withFetchWord nbits w) =
      exec i { s with
        cmdOp := opField (tableWord nbits w)
        cmdA0 := a0Field (tableWord nbits w)
        cmdA1 := a1Field (tableWord nbits w) })

/-- The three transactions of `CMD` run the command of their word (R120): after them CMD_A0, CMD_A1 and CMD_OP hold its
fields and the engine has executed it. The port's list is the model's own (assumption 1). -/
def Obligations.CmdSequenceIssuesItsWord : Prop :=
  ∀ (s : State) (w : CmdWord) (rest : List HostReq), s.sess ≠ .topcResolved →
    ∃ s1 s2 : State,
      step { s with port := cmdRequests w ++ rest } = .next s1 ∧ step s1 = .next s2 ∧
      step s2 = issue { s with
        port := rest, cmdOp := opField w, cmdA0 := a0Field w, cmdA1 := a1Field w }

/-- A host read returns the byte at its address and changes no register and emits no event (R82, R91). The list of
bytes returned is the model's own (assumption 1). -/
def Obligations.ReadReturnsByteAndChangesNothing : Prop :=
  ∀ (s : State) (a : Addr) (rest : List HostReq), s.port = .read a :: rest → s.sess ≠ .topcResolved →
    step s = .next { s with port := rest, readData := s.readData ++ [s.readByte a] }

/-- A host write to an RW register, or to an RW-L register while no session exists, makes its byte the one written and
leaves every other byte of the register space as it was; a write to CTRL keeps bit 0 of it (R83). -/
def Obligations.HostWriteSetsItsByteAlone : Prop :=
  ∀ (s : State) (a : Addr) (d : Byte) (rest : List HostReq),
    s.port = .write a d :: rest → s.sess ≠ .topcResolved →
    plainAddr a.toNat ∨ a.toNat = 0x1E3 ∨ (lockedAddr a.toNat ∧ s.sess = .none) →
    ∃ t : State, step s = .next t ∧
      t.readByte a = (if a.toNat = 0x1E3 then d &&& 1 else d) ∧
      (∀ b : Addr, b ≠ a → t.readByte b = s.readByte b) ∧
      t.port = rest ∧ t.dbg = s.dbg ∧ t.readData = s.readData

/-- While a session exists a host write to an RW-L register is ignored and no error is reported (R49). -/
def Obligations.SessionLocksInputRegisters : Prop :=
  ∀ (s : State) (a : Addr) (d : Byte) (rest : List HostReq),
    s.port = .write a d :: rest → s.sess = .uninitialized ∨ s.sess = .ready → lockedAddr a.toNat →
    step s = .next { s with port := rest }

/-- A host write to an RO register, a reserved address or a reserved field is ignored, and reserved addresses and
fields read as 0 (R50). -/
def Obligations.ReadOnlyAndReservedAreInert : Prop :=
  (∀ (s : State) (a : Addr) (d : Byte) (rest : List HostReq),
    s.port = .write a d :: rest → s.sess ≠ .topcResolved → readOnlyAddr a.toNat ∨ reservedAddr a.toNat →
    step s = .next { s with port := rest }) ∧
  (∀ (s : State) (d : Byte) (rest : List HostReq),
    s.port = .write 0x1E3 d :: rest → s.sess ≠ .topcResolved →
    step s = .next { s with port := rest, dbgEn := d.getLsbD 0 }) ∧
  (∀ (s : State) (a : Addr), reservedAddr a.toNat → s.readByte a = 0) ∧
  (∀ s : State, s.readByte 0x1E0 &&& 0xFC = 0 ∧ s.readByte 0x1E1 &&& 0xF8 = 0 ∧ s.readByte 0x1E3 &&& 0xFE = 0)

/-- Writing the same byte twice to a register stores what writing it once stores (R91). -/
def Obligations.RepeatedWriteStoresTheSame : Prop :=
  ∀ (s : State) (a : Addr) (d : Byte), (s.writeByte a d).writeByte a d = s.writeByte a d

/-- The 16-bit option registers are little-endian: the lower address is bits 7:0, the next one bits 15:8, for a read
and for a pair of writes (R86). -/
def Obligations.OptionRegistersAreLittleEndian : Prop :=
  (∀ s : State,
    s.readByte 0x188 = s.klength.extractLsb' 0 8 ∧ s.readByte 0x189 = s.klength.extractLsb' 8 8 ∧
    s.readByte 0x18A = s.maclength.extractLsb' 0 8 ∧ s.readByte 0x18B = s.maclength.extractLsb' 8 8 ∧
    s.readByte 0x18C = s.reslength.extractLsb' 0 8 ∧ s.readByte 0x18D = s.reslength.extractLsb' 8 8 ∧
    s.readByte 0x18E = s.cklength.extractLsb' 0 8 ∧ s.readByte 0x18F = s.cklength.extractLsb' 8 8 ∧
    s.readByte 0x190 = s.iklength.extractLsb' 0 8 ∧ s.readByte 0x191 = s.iklength.extractLsb' 8 8) ∧
  (∀ (s : State) (v : Half), s.sess = .none →
    let lo : Byte := v.extractLsb' 0 8
    let hi : Byte := v.extractLsb' 8 8
    (s.writeByte 0x188 lo).writeByte 0x189 hi = { s with klength := v } ∧
    (s.writeByte 0x18A lo).writeByte 0x18B hi = { s with maclength := v } ∧
    (s.writeByte 0x18C lo).writeByte 0x18D hi = { s with reslength := v } ∧
    (s.writeByte 0x18E lo).writeByte 0x18F hi = { s with cklength := v } ∧
    (s.writeByte 0x190 lo).writeByte 0x191 hi = { s with iklength := v })

/-- Reset leaves every byte of every register 0x00 but ITER = 1, no session, ERR = OK, no debug event (R340); the two
ends of the port, which are the model's own, stay as they were (assumption 4). -/
def Obligations.ResetLeavesResetValues : Prop :=
  ∀ (s : State) (rest : List HostReq), s.port = .reset :: rest → s.sess ≠ .topcResolved →
    ∃ t : State, step s = .next t ∧
      (∀ a : Addr, t.readByte a = if a.toNat = 0x192 then 1 else 0) ∧
      t.sess = .none ∧ t.err = .ok ∧ t.dbgEn = false ∧ t.dbg = [] ∧
      t = { State.reset with port := rest, readData := s.readData }

/-- A reset asserted during a CMD_OP write ends the command with no effect: the reset state, and the write does not
complete (R342). That such a write is one transaction of its own is the model's choice (assumption 14), and so is what
stays at the port (assumption 4). -/
def Obligations.ResetDuringCommandLeavesResetValues : Prop :=
  ∀ (s : State) (d : Byte) (rest : List HostReq),
    s.port = .interruptedCommand d :: rest → s.sess ≠ .topcResolved →
    step s = .next { State.reset with port := rest, readData := s.readData }

/-- With no host transaction to come the block does nothing: it starts no interaction and writes no register between
the host's transactions (R30, R341, R354). That it takes such a step at all is the model's choice (assumption 2). -/
def Obligations.BlockWaitsForTheHost : Prop :=
  ∀ s : State, s.port = [] → step s = .next s

/-! ## The permutation -/

/-- Lane `i` is the little-endian value of bytes `8 i` to `8 i + 7`, and storing lanes back is the inverse (R84). -/
def Obligations.LanesAreLittleEndian : Prop :=
  (∀ (b : Buf) (i : Nat), i < 25 →
    (lane b i).toNat = ((List.range 8).map fun k => (byteAt b (8 * i + k)).toNat * 2 ^ (8 * k)).sum) ∧
  (∀ b : Buf, storeLanes (loadLanes b) = b) ∧
  (∀ a : Lanes, loadLanes (storeLanes a) = a)

/-- Lane number `i` is `A[i mod 5, i div 5]`, and its bit `z` is bit `z mod 8` of byte `8 i + z div 8` (R141). -/
def Obligations.LaneCoordinatesAndBits : Prop :=
  ∀ (b : Buf) (i z : Nat), i < 25 → z < 64 →
    laneAt (loadLanes b) (i % 5) (i / 5) = lane b i ∧
    (lane b i).getLsbD z = (byteAt b (8 * i + z / 8)).getLsbD (z % 8)

/-- The five step formulas, lane by lane: theta (R143), rho with its table (R144), pi in both forms (R145), chi (R146)
and iota (R147). -/
def Obligations.StepFormulasHoldPerLane : Prop :=
  ∀ (a : Lanes) (x y : Nat), x < 5 → y < 5 →
    (let col := fun u => laneAt a u 0 ^^^ laneAt a u 1 ^^^ laneAt a u 2 ^^^ laneAt a u 3 ^^^ laneAt a u 4
     laneAt (theta a) x y = laneAt a x y ^^^ (col (x + 4) ^^^ (col (x + 1)).rotateLeft 1)) ∧
    laneAt (rho a) x y = (laneAt a x y).rotateLeft ((rhoRows.getD y []).getD x 0) ∧
    laneAt (piStep a) y (2 * x + 3 * y) = laneAt a x y ∧
    laneAt (piStep a) x y = (let d := piSources.getD (x + 5 * y) 0; laneAt a (d % 5) (d / 5)) ∧
    laneAt (chi a) x y = laneAt a x y ^^^ (~~~ laneAt a (x + 1) y &&& laneAt a (x + 2) y) ∧
    (∀ c : Lane, laneAt (iota c a) x y = if x = 0 ∧ y = 0 then laneAt a 0 0 ^^^ c else laneAt a x y)

/-- The in-place loop of R150 equals rho followed by pi. -/
def Obligations.SequentialRhoPiAgrees : Prop :=
  ∀ a : Lanes, seqRhoPi a = piStep (rho a)

/-- The table of round constants equals the shift register's sums (R148). -/
def Obligations.RoundConstantsFollowShiftRegister : Prop :=
  ∀ ir : Fin 24, roundConstants[ir] = lfsrConstant ir.val

/-- The permutation loads the lanes, applies rounds 0 to 23 in order, each theta, rho, pi, chi, iota with the round's
constant, and stores the lanes (R140, R142, R151). -/
def Obligations.PermuteIsTwentyFourRounds : Prop :=
  ∀ (b : Buf) (r : Nat → Lanes), r 0 = loadLanes b →
    (∀ ir : Fin 24, r (ir.val + 1) = iota roundConstants[ir] (chi (piStep (rho (theta (r ir.val)))))) →
    permute b = storeLanes (r 24)

/-- PERMUTE applies the permutation to STATE when `len` is 200, and raises INVALID_LENGTH otherwise; nothing but STATE
and ERR changes (R154). -/
def Obligations.PermuteCommandMeaning : Prop :=
  ∀ (s : State) (len : Byte),
    (len.toNat = 200 → exec (.permute len) s = .next { s with stateBuf := permute s.stateBuf, err := .ok }) ∧
    (len.toNat ≠ 200 → exec (.permute len) s = .next { s with err := .invalidLength })

/-! ## The codec -/

/-- A packed field stands byte-reversed in its range, and every byte outside the range is unchanged (R182). -/
def Obligations.PushFieldReversesIntoItsRange : Prop :=
  ∀ (b : Buf) (off : Nat) (d : Bytes), off + d.length ≤ 200 →
    (∀ i, i < d.length → byteAt (pushField b off d) (off + d.length - 1 - i) = d.getD i 0) ∧
    (∀ p, p < off ∨ off + d.length ≤ p → byteAt (pushField b off d) p = byteAt b p)

/-- An extracted field has the length asked for, and its byte `i` is the buffer's byte `off + n - 1 - i` (R183). -/
def Obligations.PullFieldReversesItsRange : Prop :=
  ∀ (b : Buf) (off n : Nat), off + n ≤ 200 →
    (pullField b off n).length = n ∧
    ∀ i, i < n → (pullField b off n).getD i 0 = byteAt b (off + n - 1 - i)

/-- A field pulled from where it was pushed is the field (R188). -/
def Obligations.PulledFieldIsPushedField : Prop :=
  ∀ (b : Buf) (off : Nat) (d : Bytes), d.length ≤ 32 → off + d.length ≤ 200 →
    pullField (pushField b off d) off d.length = d

/-- Every byte of an assembled state: each field of R185 byte-reversed at its offset, 0x00 where a field is absent or K
is short, the two padding bytes, and 0x00 elsewhere (R181, R185, R189, R190). -/
def Obligations.AssembledStateLayout : Prop :=
  ∀ (first : Bytes) (inst : Byte) (rand amf sqn : Option Bytes) (k : Bytes),
    first.length = 32 → (∀ d ∈ rand, d.length = 16) → (∀ d ∈ amf, d.length = 2) → (∀ d ∈ sqn, d.length = 6) →
    (k.length = 16 ∨ k.length = 32) →
    ∀ p, p < 200 → byteAt (assembleState first inst rand amf sqn k) p =
      if p < 32 then first.getD (31 - p) 0
      else if p = 32 then inst
      else if p < 40 then [0x30, 0x2E, 0x31, 0x4B, 0x41, 0x55, 0x54].getD (p - 33) 0
      else if p < 56 then (rand.getD []).getD (55 - p) 0
      else if p < 58 then (amf.getD []).getD (57 - p) 0
      else if p < 64 then (sqn.getD []).getD (63 - p) 0
      else if p < 64 + k.length then k.getD (63 + k.length - p) 0
      else if p = 96 then 0x1F
      else if p = 135 then 0x80
      else 0

/-- STATE_INIT loads the padded empty state: 0x1F at byte 96, 0x80 at byte 135, 0x00 elsewhere (R180, R191). -/
def Obligations.StateInitMeaning : Prop :=
  ∀ s : State, ∃ b : Buf,
    exec .stateInit s = .next { s with stateBuf := b, err := .ok } ∧
    ∀ p, p < 200 → byteAt b p = if p = 96 then 0x1F else if p = 135 then 0x80 else 0

/-- PUSH_FIELD packs `R(FIELD)[0..len)` into STATE, byte-reversed, when `len ≤ 32` and `off + len ≤ 200`, and raises
INVALID_PARAMETER otherwise; no byte outside the field's range and no other register changes (R192). -/
def Obligations.PushFieldCommandMeaning : Prop :=
  ∀ (s : State) (off len : Byte),
    (len.toNat ≤ 32 ∧ off.toNat + len.toNat ≤ 200 → ∃ b : Buf,
      exec (.pushField off len) s = .next { s with stateBuf := b, err := .ok } ∧
      (∀ i, i < len.toNat → byteAt b (off.toNat + len.toNat - 1 - i) = byteAt s.field i) ∧
      (∀ p, p < off.toNat ∨ off.toNat + len.toNat ≤ p → byteAt b p = byteAt s.stateBuf p)) ∧
    (¬ (len.toNat ≤ 32 ∧ off.toNat + len.toNat ≤ 200) →
      exec (.pushField off len) s = .next { s with err := .invalidParameter })

/-- PULL_FIELD writes the extracted bytes into FIELD, in natural order, and zeroes the rest of it, when `len ≤ 32` and
`off + len ≤ 200`, and raises INVALID_PARAMETER otherwise; no other register changes (R193). -/
def Obligations.PullFieldCommandMeaning : Prop :=
  ∀ (s : State) (off len : Byte),
    (len.toNat ≤ 32 ∧ off.toNat + len.toNat ≤ 200 → ∃ f : Vector Byte 32,
      exec (.pullField off len) s = .next { s with field := f, err := .ok } ∧
      ∀ i, i < 32 → byteAt f i =
        if i < len.toNat then byteAt s.stateBuf (off.toNat + len.toNat - 1 - i) else 0) ∧
    (¬ (len.toNat ≤ 32 ∧ off.toNat + len.toNat ≤ 200) →
      exec (.pullField off len) s = .next { s with err := .invalidParameter })

/-- PULL_FIELD after PUSH_FIELD with the same operands: both succeed, and FIELD holds its first `len` bytes again and
0x00 past them (R188, R192, R193). -/
def Obligations.PullAfterPushRestoresField : Prop :=
  ∀ (s : State) (off len : Byte), len.toNat ≤ 32 → off.toNat + len.toNat ≤ 200 →
    ∃ t u : State, exec (.pushField off len) s = .next t ∧ exec (.pullField off len) t = .next u ∧
      t.err = .ok ∧ u.err = .ok ∧
      ∀ i, i < 32 → byteAt u.field i = if i < len.toNat then byteAt s.field i else 0

/-! ## The selector -/

/-- Bit by bit, the byte of each family is as its layout says, with `IBIT(i)` the bit of value `1 << (7 - i)`, and the
selector fails with INVALID_PARAMETER exactly when a length the family needs is not legal (R211 to R217). -/
def Obligations.InstByteLayouts : Prop :=
  ∀ (s : State) (kbits : Nat), kbits = 128 ∨ kbits = 256 →
    (∀ fam : Family, ¬ s.lengthsOk fam → instByte fam kbits s = .error .invalidParameter) ∧
    (∀ fam : Family, s.lengthsOk fam → ∃ v : Byte, instByte fam kbits s = .ok v ∧
      let bit := fun i : Nat => v.getLsbD (7 - i)
      bit 7 = decide (kbits = 256) ∧
      match fam with
      | .topc => ∀ i, i < 7 → bit i = false
      | .f1 => bit 0 = false ∧ bit 1 = false ∧ bit 5 = false ∧ bit 6 = false ∧
          bit 2 = decide (s.maclength.toNat = 256) ∧ bit 3 = decide (s.maclength.toNat = 128) ∧
          bit 4 = decide (s.maclength.toNat = 64)
      | .f1star => bit 0 = true ∧ bit 1 = false ∧ bit 5 = false ∧ bit 6 = false ∧
          bit 2 = decide (s.maclength.toNat = 256) ∧ bit 3 = decide (s.maclength.toNat = 128) ∧
          bit 4 = decide (s.maclength.toNat = 64)
      | .f2345 => bit 0 = false ∧ bit 1 = true ∧
          bit 2 = decide (s.reslength.toNat = 256) ∧ bit 3 = decide (s.reslength.toNat = 128) ∧
          bit 4 = decide (s.reslength.toNat = 64) ∧
          bit 5 = decide (s.cklength.toNat = 256) ∧ bit 6 = decide (s.iklength.toNat = 256)
      | .f5star => bit 0 = true ∧ bit 1 = true ∧ ∀ i, 2 ≤ i → i < 7 → bit i = false)

/-- INSTANCE with the selectors of R118 (0 TOPC, 1 F1, 2 F1STAR, 3 F2345, 4 F5STAR) writes the family's byte to INST when
the key length and the family's lengths are legal, raises INVALID_PARAMETER otherwise, and raises ILLEGAL_COMMAND for a
selector above 4; nothing but INST and ERR changes (R220, with the byte of R219 as `InstByteLayouts` spells it out). No
word encodes a selector above 4, and that the term raises its decode error is the model's choice (assumption 12). -/
def Obligations.InstanceCommandMeaning : Prop :=
  ∀ s : State,
    (∀ (sel : Byte) (fam : Family),
      (sel, fam) ∈ [(0, Family.topc), (1, .f1), (2, .f1star), (3, .f2345), (4, .f5star)] →
      (s.keyOk → s.lengthsOk fam → ∃ v : Byte,
        instByte fam (8 * s.k.len.toNat) s = .ok v ∧
        exec (.selectInst sel) s = .next { s with inst := v, err := .ok }) ∧
      (¬ (s.keyOk ∧ s.lengthsOk fam) →
        exec (.selectInst sel) s = .next { s with err := .invalidParameter })) ∧
    (∀ sel : Byte, 4 < sel.toNat → exec (.selectInst sel) s = .next { s with err := .illegalCommand })

/-- Two legal uses of the selector give the same byte only if they agree on the family, on the key length and on every
output length the family encodes (R219). -/
def Obligations.DistinctProfilesHaveDistinctBytes : Prop :=
  ∀ (s s' : State) (fam fam' : Family) (k k' : Nat) (v : Byte),
    (k = 128 ∨ k = 256) → (k' = 128 ∨ k' = 256) →
    instByte fam k s = .ok v → instByte fam' k' s' = .ok v →
    fam = fam' ∧ k = k' ∧ (fam = .f1 ∨ fam = .f1star → s.maclength = s'.maclength) ∧
      (fam = .f2345 → s.reslength = s'.reslength ∧ s.cklength = s'.cklength ∧ s.iklength = s'.iklength)

/-! ## The driver -/

/-- `Iterate` applies the permutation ITER times, each output the next input, and reports the pre-permutation state and
each output, ITER + 1 events, when DBG_EN is 1 and none when it is 0; no register changes (R243). -/
def Obligations.IterateAppliesAndReports : Prop :=
  ∀ (label : Family) (b : Buf) (s : State),
    iterate label b s =
      (permute^[s.iter.toNat] b,
        { s with dbg := s.dbg ++
            if s.dbgEn then
              (List.range (s.iter.toNat + 1)).map fun j => ⟨label, BitVec.ofNat 8 j, permute^[j] b⟩
            else [] })

/-- SESSION_INIT opens a session on legal inputs when none exists: READY with the supplied TOPc cached, or UNINITIALIZED
when only TOP is supplied; nothing else changes (R241). -/
def Obligations.SessionInitOpensSession : Prop :=
  ∀ s : State, s.sess = .none → s.inputsOk →
    (s.topcIn.len.toNat = 32 →
      exec .sessionInit s = .next { s with topcCache := s.topcIn.bytes, sess := .ready, err := .ok }) ∧
    (s.topcIn.len.toNat = 0 ∧ s.top.len.toNat = 32 →
      exec .sessionInit s = .next { s with sess := .uninitialized, err := .ok })

/-- The errors of SESSION_INIT, first failing check first: SEQUENCE, the key length, MISSING_INPUT, the TOPc length or
else the TOP length, RAND, SQN and AMF, ITER; only ERR changes (R241, R304). -/
def Obligations.SessionInitFirstFailingCheck : Prop :=
  ∀ s : State,
    (s.sess ≠ .none → exec .sessionInit s = .next { s with err := .sequence }) ∧
    (s.sess = .none → ¬ s.keyOk → exec .sessionInit s = .next { s with err := .invalidParameter }) ∧
    (s.sess = .none → s.keyOk → s.top.len.toNat = 0 → s.topcIn.len.toNat = 0 →
      exec .sessionInit s = .next { s with err := .missingInput }) ∧
    (s.sess = .none → s.keyOk → ¬ (s.top.len.toNat = 0 ∧ s.topcIn.len.toNat = 0) →
      ((s.topcIn.len.toNat ≠ 0 ∧ s.topcIn.len.toNat ≠ 32) ∨ (s.topcIn.len.toNat = 0 ∧ s.top.len.toNat ≠ 32) ∨
        s.rand.len.toNat ≠ 16 ∨ s.sqn.len.toNat ≠ 6 ∨ s.amf.len.toNat ≠ 2 ∨ s.iter.toNat = 0) →
      exec .sessionInit s = .next { s with err := .invalidParameter })

/-- SESSION_CLOSE ends the session and clears TOPC_CACHE, in every session state; every other register keeps its value
(R242). -/
def Obligations.SessionCloseMeaning : Prop :=
  ∀ s : State, ∃ z : Vector Byte 32, (∀ i, i < 32 → byteAt z i = 0) ∧
    exec .sessionClose s = .next { s with sess := .none, topcCache := z, err := .ok }

/-- COMPUTE_TOPC writes the TOPc of (K, TOP) and its length 32 to TOPC_OUT on legal inputs, and raises INVALID_PARAMETER
otherwise; of the other registers only ERR changes (R244, R245). -/
def Obligations.ComputeTopcMeaning : Prop :=
  ∀ s : State,
    (s.keyOk → s.top.len.toNat = 32 → s.iter.toNat ≠ 0 →
      let flag : Byte := if s.k.len.toNat = 32 then 0x01 else 0x00
      let b := assembleState s.top.bytes.toList flag none none none (s.k.bytes.toList.take s.k.len.toNat)
      exec .computeTopc s = .next { s with
        topcOut := ⟨fill 32 (pullField (permute^[s.iter.toNat] b) 0 32), 32⟩
        dbg := s.dbg ++ s.derivationEvents .topc b
        err := .ok }) ∧
    (¬ (s.keyOk ∧ s.top.len.toNat = 32 ∧ s.iter.toNat ≠ 0) →
      exec .computeTopc s = .next { s with err := .invalidParameter })

/-- F1 on a READY session with a legal MACLENGTH writes MAC-A, MACLENGTH / 8 bytes from offset 0 of the iterated state of
TOPc, RAND, AMF, SQN and K, zero-filled, with its length; nothing else but ERR changes (R247, R248, R254). -/
def Obligations.F1WritesMacA : Prop :=
  ∀ s : State, s.sess = .ready → s.inputsOk → s.macOk →
    ∃ inst : Byte, instByte .f1 (8 * s.k.len.toNat) s = .ok inst ∧
      let b := assembleState s.topcCache.toList inst (some s.rand.bytes.toList) (some s.amf.bytes.toList)
        (some s.sqn.bytes.toList) (s.k.bytes.toList.take s.k.len.toNat)
      exec .f1 s = .next { s with
        maca := ⟨fill 32 (pullField (permute^[s.iter.toNat] b) 0 (s.maclength.toNat / 8)),
          BitVec.ofNat 8 (s.maclength.toNat / 8)⟩
        dbg := s.dbg ++ s.derivationEvents .f1 b
        err := .ok }

/-- F1STAR on a READY session: MAC-S, as F1 with the star bit in the configuration byte (R247, R249, R254). -/
def Obligations.F1StarWritesMacS : Prop :=
  ∀ s : State, s.sess = .ready → s.inputsOk → s.macOk →
    ∃ inst : Byte, instByte .f1star (8 * s.k.len.toNat) s = .ok inst ∧
      let b := assembleState s.topcCache.toList inst (some s.rand.bytes.toList) (some s.amf.bytes.toList)
        (some s.sqn.bytes.toList) (s.k.bytes.toList.take s.k.len.toNat)
      exec .f1star s = .next { s with
        macs := ⟨fill 32 (pullField (permute^[s.iter.toNat] b) 0 (s.maclength.toNat / 8)),
          BitVec.ofNat 8 (s.maclength.toNat / 8)⟩
        dbg := s.dbg ++ s.derivationEvents .f1star b
        err := .ok }

/-- F2345 on a READY session with legal lengths writes RES, CK, IK and AK, from offsets 0, 32, 64 and 96 of one iterated
state of TOPc, RAND and K; AMF and SQN are not packed (R247, R250, R254). -/
def Obligations.F2345WritesFourOutputs : Prop :=
  ∀ s : State, s.sess = .ready → s.inputsOk → s.keysOk →
    ∃ inst : Byte, instByte .f2345 (8 * s.k.len.toNat) s = .ok inst ∧
      let b := assembleState s.topcCache.toList inst (some s.rand.bytes.toList) none none
        (s.k.bytes.toList.take s.k.len.toNat)
      let r := permute^[s.iter.toNat] b
      exec .f2345 s = .next { s with
        res := ⟨fill 32 (pullField r 0 (s.reslength.toNat / 8)), BitVec.ofNat 8 (s.reslength.toNat / 8)⟩
        ck := ⟨fill 32 (pullField r 32 (s.cklength.toNat / 8)), BitVec.ofNat 8 (s.cklength.toNat / 8)⟩
        ik := ⟨fill 32 (pullField r 64 (s.iklength.toNat / 8)), BitVec.ofNat 8 (s.iklength.toNat / 8)⟩
        ak := ⟨fill 6 (pullField r 96 6), 6⟩
        dbg := s.dbg ++ s.derivationEvents .f2345 b
        err := .ok }

/-- F5STAR on a READY session always succeeds: AK*, 6 bytes from offset 96 (R247, R251, R254). -/
def Obligations.F5StarWritesAkStar : Prop :=
  ∀ s : State, s.sess = .ready → s.inputsOk →
    let inst : Byte := if s.k.len.toNat = 32 then 0xC1 else 0xC0
    let b := assembleState s.topcCache.toList inst (some s.rand.bytes.toList) none none
      (s.k.bytes.toList.take s.k.len.toNat)
    exec .f5star s = .next { s with
      aks := ⟨fill 6 (pullField (permute^[s.iter.toNat] b) 96 6), 6⟩
      dbg := s.dbg ++ s.derivationEvents .f5star b
      err := .ok }

/-- The first F-command of an UNINITIALIZED session whose checks pass derives TOPc, caches it and reports it, then does
what it does on the READY session so left; every later one finds the session READY (R246, R95). -/
def Obligations.FirstFCommandDerivesTopc : Prop :=
  ∀ (s : State) (fam : Family) (i : Instr), Family.command fam = some i →
    s.sess = .uninitialized → s.inputsOk → s.lengthsOk fam →
    ∃ t : State, exec i s = .next t ∧ exec i s.topcResolved = .next t ∧
      t.topcCache = fill 32 s.derivedTopc ∧ t.sess = .ready ∧ t.err = .ok

/-- The errors of the F-commands: SEQUENCE with no session, then INVALID_PARAMETER when the key length, an output length
of the family, RAND, or (F1, F1STAR) SQN or AMF is not legal; only ERR changes and nothing is derived (R246, R304). -/
def Obligations.FCommandFirstFailingCheck : Prop :=
  ∀ (s : State) (fam : Family) (i : Instr), Family.command fam = some i →
    (s.sess = .none → exec i s = .next { s with err := .sequence }) ∧
    (s.sess ≠ .none →
      (¬ s.keyOk ∨ ¬ s.lengthsOk fam ∨ s.rand.len.toNat ≠ 16 ∨
        ((fam = .f1 ∨ fam = .f1star) ∧ (s.sqn.len.toNat ≠ 6 ∨ s.amf.len.toNat ≠ 2))) →
      exec i s = .next { s with err := .invalidParameter })

/-- NOP sets ERR to OK and changes nothing else (R252). -/
def Obligations.NopMeaning : Prop :=
  ∀ s : State, exec .nop s = .next { s with err := .ok }

/-! ## Whole-machine rules -/

/-- A command that fails changes ERR alone and emits no debug event (R302). -/
def Obligations.FailingCommandChangesErrAlone : Prop :=
  ∀ (i : Instr) (s t : State), exec i s = .next t → t.err ≠ .ok → t = { s with err := t.err }

/-- Every command ends, with a next state and never a fault or a refusal, in every state (R301, R315). -/
def Obligations.EveryCommandCompletes : Prop :=
  ∀ (i : Instr) (s : State), ∃ t : State, exec i s = .next t

/-- The frame of every command: a host address outside those it may write reads as before, and the port's two ends are
as before. The addresses are `mayWrite`'s: ERR, the bytes of the command's own results, and SESS and TOPC_CACHE for the
commands of R57. -/
def Obligations.CommandFrame : Prop :=
  ∀ (i : Instr) (s t : State), exec i s = .next t →
    (∀ a : Addr, mayWrite i a.toNat = false → t.readByte a = s.readByte a) ∧
    t.port = s.port ∧ t.readData = s.readData

/-- SESS changes only by the transitions of R51: a failing command leaves it; SESSION_INIT succeeds only from NONE, to
READY with TOPC_LEN = 32 and to UNINITIALIZED with TOPC_LEN = 0; a succeeding F-command has a session and leaves it
READY; SESSION_CLOSE leaves NONE; every other command leaves it. -/
def Obligations.SessionTransitions : Prop :=
  ∀ (i : Instr) (s t : State), exec i s = .next t →
    (t.err ≠ .ok → t.sess = s.sess) ∧
    (t.err = .ok →
      match i with
      | .sessionInit => s.sess = .none ∧
          ((s.topcIn.len.toNat = 32 ∧ t.sess = .ready) ∨ (s.topcIn.len.toNat = 0 ∧ t.sess = .uninitialized))
      | .sessionClose => t.sess = .none
      | .f1 => s.sess ≠ .none ∧ t.sess = .ready
      | .f1star => s.sess ≠ .none ∧ t.sess = .ready
      | .f2345 => s.sess ≠ .none ∧ t.sess = .ready
      | .f5star => s.sess ≠ .none ∧ t.sess = .ready
      | .nop => t.sess = s.sess
      | .stateInit => t.sess = s.sess
      | .permute _ => t.sess = s.sess
      | .pushField _ _ => t.sess = s.sess
      | .pullField _ _ => t.sess = s.sess
      | .selectInst _ => t.sess = s.sess
      | .computeTopc => t.sess = s.sess)

/-- The debug events a command emits, by label code (R118: 0 TOPC, 1 F1, 2 F1STAR, 3 F2345, 4 F5STAR) and index: none if it fails or DBG_EN is 0; otherwise COMPUTE_TOPC and an
F-command on a READY session emit indices 0 to ITER under their family, an F-command on an UNINITIALIZED session the
TOPc derivation's first; no other command emits any (R312). -/
def Obligations.DebugEventsOfEachCommand : Prop :=
  ∀ (i : Instr) (s t : State), exec i s = .next t → ∃ new : List DbgEvent, t.dbg = s.dbg ++ new ∧
    let run := fun label : Byte => (List.range (s.iter.toNat + 1)).map fun j => (label, BitVec.ofNat 8 j)
    let ofF := fun label : Byte => (if s.sess = .uninitialized then run 0 else []) ++ run label
    (new.map fun e => (familyCode e.label, e.index)) =
      if t.err ≠ .ok ∨ s.dbgEn = false then []
      else match i with
        | .computeTopc => run 0
        | .f1 => ofF 1
        | .f1star => ofF 2
        | .f2345 => ofF 3
        | .f5star => ofF 4
        | .nop => []
        | .stateInit => []
        | .permute _ => []
        | .pushField _ _ => []
        | .pullField _ _ => []
        | .selectInst _ => []
        | .sessionInit => []
        | .sessionClose => []

/-- The invariant of `Safety.lean` holds in the state after reset (R54, R340). -/
def Obligations.ResetMeetsInv : Prop := State.reset.Inv

/-- Every step keeps the invariant: TOPC_CACHE is all 0x00 without a TOPc and is the session's TOPc when READY (R54),
TOPC_RESOLVED is never seen (R51), a session's locked inputs stay legal (R49), and each output register has a legal
length and 0x00 past it (R254). -/
def Obligations.InvKeptByEveryStep : Prop :=
  ∀ s t : State, s.Inv → step s = .next t → t.Inv

/-- In a state that meets the invariant a step answers a next state, never a fault or a refusal (R315, R355). -/
def Obligations.InvStatesNeverStop : Prop :=
  ∀ s : State, s.Inv → ∃ t : State, step s = .next t

/-- DBG_EN and the event history have no effect on any register (R46, R55, R312): two states that differ in them alone
take every command to states that differ in them alone. -/
def Obligations.DebugPortHasNoEffect : Prop :=
  ∀ (i : Instr) (s : State) (en : Bool) (l : List DbgEvent), ∃ (t : State) (l' : List DbgEvent),
    exec i s = .next t ∧ exec i { s with dbgEn := en, dbg := l } = .next { t with dbgEn := en, dbg := l' }

/-- No command reads the bytes of K past K_LEN (R36, 93_implementation_defined.md U8): states that differ in them alone
go to states that differ in them alone. -/
def Obligations.BytesPastKeyLengthAreUnread : Prop :=
  ∀ (i : Instr) (s : State) (kb : Vector Byte 32),
    firstBytes kb s.k.len.toNat = firstBytes s.k.bytes s.k.len.toNat →
    ∃ t : State, exec i s = .next t ∧
      exec i { s with k := { s.k with bytes := kb } } = .next { t with k := { t.k with bytes := kb } }

/-- The driver commands neither read nor write STATE (R35, R349). -/
def Obligations.DriverCommandsIgnoreState : Prop :=
  ∀ (i : Instr) (s : State) (b : Buf),
    i = .sessionInit ∨ i = .sessionClose ∨ i = .computeTopc ∨ i = .f1 ∨ i = .f1star ∨ i = .f2345 ∨ i = .f5star →
    ∃ t : State, exec i s = .next t ∧ t.stateBuf = s.stateBuf ∧
      exec i { s with stateBuf := b } = .next { t with stateBuf := b }

/-- A session opened from the TOPc that COMPUTE_TOPC gives produces the same outputs as the session opened from TOP, and
its first F-command leaves the same TOPC_CACHE, which is that TOPc (R255). -/
def Obligations.TopcReuseGivesSameOutputs : Prop :=
  ∀ (s : State) (fam : Family) (i : Instr), Family.command fam = some i →
    s.sess = .none → s.inputsOk → s.topcIn.len.toNat = 0 → s.top.len.toNat = 32 → s.lengthsOk fam →
    ∃ a b c t u : State,
      exec .computeTopc s = .next a ∧ exec .sessionInit s = .next b ∧
      exec .sessionInit { s with topcIn := ⟨a.topcOut.bytes, 32⟩ } = .next c ∧
      exec i b = .next t ∧ exec i c = .next u ∧ t.err = .ok ∧ u.err = .ok ∧
      t.topcCache = a.topcOut.bytes ∧ u.topcCache = a.topcOut.bytes ∧
      t.maca = u.maca ∧ t.macs = u.macs ∧ t.res = u.res ∧ t.ck = u.ck ∧ t.ik = u.ik ∧ t.ak = u.ak ∧ t.aks = u.aks

/-- The configuration bytes of F1 and F1STAR differ in the star bit 0x80 alone, clear in F1's and set in F1STAR's (R213),
and their assembled states differ in byte 32 alone, which is that byte (R249). -/
def Obligations.F1AndF1StarDifferInTheStarBit : Prop :=
  ∀ (s : State) (kbits : Nat) (v w : Byte), instByte .f1 kbits s = .ok v → instByte .f1star kbits s = .ok w →
    v &&& 0x80 = 0 ∧ w = v ^^^ 0x80 ∧ byteAt (macBlock v s) 32 = v ∧ byteAt (macBlock w s) 32 = w ∧
    ∀ p, p < 200 → p ≠ 32 → byteAt (macBlock v s) p = byteAt (macBlock w s) p

/-! ## What the host reads where -/

/-- The host reads byte `i` of each register of more than one byte at its base address plus `i`: STATE, the six inputs,
FIELD, TOPC_CACHE and the eight outputs (R92). The option registers are in `OptionRegistersAreLittleEndian`. -/
def Obligations.FieldRegistersReadAtTheirAddresses : Prop :=
  ∀ s : State,
    (∀ i : Fin 200, s.readByte (regAddr 0x000 i) = s.stateBuf[i]) ∧
    (∀ i : Fin 32, s.readByte (regAddr 0x100 i) = s.k.bytes[i] ∧ s.readByte (regAddr 0x120 i) = s.top.bytes[i] ∧
      s.readByte (regAddr 0x140 i) = s.topcIn.bytes[i]) ∧
    (∀ i : Fin 16, s.readByte (regAddr 0x160 i) = s.rand.bytes[i]) ∧
    (∀ i : Fin 6, s.readByte (regAddr 0x170 i) = s.sqn.bytes[i]) ∧
    (∀ i : Fin 2, s.readByte (regAddr 0x176 i) = s.amf.bytes[i]) ∧
    (∀ i : Fin 32, s.readByte (regAddr 0x1A0 i) = s.field[i] ∧ s.readByte (regAddr 0x1C0 i) = s.topcCache[i]) ∧
    (∀ i : Fin 32, s.readByte (regAddr 0x200 i) = s.topcOut.bytes[i] ∧ s.readByte (regAddr 0x220 i) = s.maca.bytes[i] ∧
      s.readByte (regAddr 0x240 i) = s.macs.bytes[i] ∧ s.readByte (regAddr 0x260 i) = s.res.bytes[i] ∧
      s.readByte (regAddr 0x280 i) = s.ck.bytes[i] ∧ s.readByte (regAddr 0x2A0 i) = s.ik.bytes[i]) ∧
    (∀ i : Fin 6, s.readByte (regAddr 0x2C0 i) = s.ak.bytes[i] ∧ s.readByte (regAddr 0x2C8 i) = s.aks.bytes[i])

/-- The host reads each register of one byte at its address (R92): the lengths, ITER, INST, the command registers, SESS
by its code (R43), ERR by its code (R300), and CTRL with DBG_EN in bit 0 (R46). -/
def Obligations.ByteRegistersReadAtTheirAddresses : Prop :=
  ∀ s : State,
    (s.readByte 0x180 = s.k.len ∧ s.readByte 0x181 = s.top.len ∧ s.readByte 0x182 = s.topcIn.len ∧
      s.readByte 0x183 = s.rand.len ∧ s.readByte 0x184 = s.sqn.len ∧ s.readByte 0x185 = s.amf.len ∧
      s.readByte 0x192 = s.iter) ∧
    (s.readByte 0x1E2 = s.inst ∧ s.readByte 0x1E3 = (if s.dbgEn then 1 else 0) ∧
      s.readByte 0x1E4 = s.cmdOp ∧ s.readByte 0x1E5 = s.cmdA0 ∧ s.readByte 0x1E6 = s.cmdA1) ∧
    (s.readByte 0x2D0 = s.topcOut.len ∧ s.readByte 0x2D1 = s.maca.len ∧ s.readByte 0x2D2 = s.macs.len ∧
      s.readByte 0x2D3 = s.res.len ∧ s.readByte 0x2D4 = s.ck.len ∧ s.readByte 0x2D5 = s.ik.len ∧
      s.readByte 0x2D6 = s.ak.len ∧ s.readByte 0x2D7 = s.aks.len) ∧
    (s.readByte 0x1E0 = match s.sess with
      | .none => 0
      | .uninitialized => 1
      | .topcResolved => 2
      | .ready => 3) ∧
    (s.readByte 0x1E1 = match s.err with
      | .ok => 0
      | .invalidLength => 1
      | .invalidParameter => 2
      | .missingInput => 3
      | .illegalCommand => 4
      | .sequence => 5)
end

