-- ==== Sys2Proof/Config.lean ====
section
/-! DEFINITION. What the spec leaves to an implementation: the one open parameter of R10. -/

namespace Sys2Proof

/-- LATENCY(command, ITER): the time a command takes (R10, R353, 92_eei_decisions.md D38). The spec leaves it
open and no rule depends on it, so it has no body and no definition of the model reads it. -/
opaque Config.latency : Instr → Byte → Nat

end Sys2Proof
end

