-- ==== Sys2Proof/Laws/State.lean ====
section
/-! SUPPORT. What each named update of the state does to each field: true by unfolding the update once, so that no
later proof unfolds it. -/

namespace Sys2Proof.Machine

variable (s : State)

/-! ## `raise` (R302): only ERR -/

@[simp] theorem State.raise_stateBuf (e : Err) : (s.raise e).stateBuf = s.stateBuf := rfl
@[simp] theorem State.raise_k (e : Err) : (s.raise e).k = s.k := rfl
@[simp] theorem State.raise_top (e : Err) : (s.raise e).top = s.top := rfl
@[simp] theorem State.raise_topcIn (e : Err) : (s.raise e).topcIn = s.topcIn := rfl
@[simp] theorem State.raise_rand (e : Err) : (s.raise e).rand = s.rand := rfl
@[simp] theorem State.raise_sqn (e : Err) : (s.raise e).sqn = s.sqn := rfl
@[simp] theorem State.raise_amf (e : Err) : (s.raise e).amf = s.amf := rfl
@[simp] theorem State.raise_klength (e : Err) : (s.raise e).klength = s.klength := rfl
@[simp] theorem State.raise_maclength (e : Err) : (s.raise e).maclength = s.maclength := rfl
@[simp] theorem State.raise_reslength (e : Err) : (s.raise e).reslength = s.reslength := rfl
@[simp] theorem State.raise_cklength (e : Err) : (s.raise e).cklength = s.cklength := rfl
@[simp] theorem State.raise_iklength (e : Err) : (s.raise e).iklength = s.iklength := rfl
@[simp] theorem State.raise_iter (e : Err) : (s.raise e).iter = s.iter := rfl
@[simp] theorem State.raise_field (e : Err) : (s.raise e).field = s.field := rfl
@[simp] theorem State.raise_topcCache (e : Err) : (s.raise e).topcCache = s.topcCache := rfl
@[simp] theorem State.raise_sess (e : Err) : (s.raise e).sess = s.sess := rfl
@[simp] theorem State.raise_err (e : Err) : (s.raise e).err = e := rfl
@[simp] theorem State.raise_inst (e : Err) : (s.raise e).inst = s.inst := rfl
@[simp] theorem State.raise_dbgEn (e : Err) : (s.raise e).dbgEn = s.dbgEn := rfl
@[simp] theorem State.raise_cmdOp (e : Err) : (s.raise e).cmdOp = s.cmdOp := rfl
@[simp] theorem State.raise_cmdA0 (e : Err) : (s.raise e).cmdA0 = s.cmdA0 := rfl
@[simp] theorem State.raise_cmdA1 (e : Err) : (s.raise e).cmdA1 = s.cmdA1 := rfl
@[simp] theorem State.raise_topcOut (e : Err) : (s.raise e).topcOut = s.topcOut := rfl
@[simp] theorem State.raise_maca (e : Err) : (s.raise e).maca = s.maca := rfl
@[simp] theorem State.raise_macs (e : Err) : (s.raise e).macs = s.macs := rfl
@[simp] theorem State.raise_res (e : Err) : (s.raise e).res = s.res := rfl
@[simp] theorem State.raise_ck (e : Err) : (s.raise e).ck = s.ck := rfl
@[simp] theorem State.raise_ik (e : Err) : (s.raise e).ik = s.ik := rfl
@[simp] theorem State.raise_ak (e : Err) : (s.raise e).ak = s.ak := rfl
@[simp] theorem State.raise_aks (e : Err) : (s.raise e).aks = s.aks := rfl
@[simp] theorem State.raise_dbg (e : Err) : (s.raise e).dbg = s.dbg := rfl
@[simp] theorem State.raise_port (e : Err) : (s.raise e).port = s.port := rfl
@[simp] theorem State.raise_readData (e : Err) : (s.raise e).readData = s.readData := rfl

/-! ## `done` (R303): only ERR -/

@[simp] theorem State.done_stateBuf : (s.done).stateBuf = s.stateBuf := rfl
@[simp] theorem State.done_k : (s.done).k = s.k := rfl
@[simp] theorem State.done_top : (s.done).top = s.top := rfl
@[simp] theorem State.done_topcIn : (s.done).topcIn = s.topcIn := rfl
@[simp] theorem State.done_rand : (s.done).rand = s.rand := rfl
@[simp] theorem State.done_sqn : (s.done).sqn = s.sqn := rfl
@[simp] theorem State.done_amf : (s.done).amf = s.amf := rfl
@[simp] theorem State.done_klength : (s.done).klength = s.klength := rfl
@[simp] theorem State.done_maclength : (s.done).maclength = s.maclength := rfl
@[simp] theorem State.done_reslength : (s.done).reslength = s.reslength := rfl
@[simp] theorem State.done_cklength : (s.done).cklength = s.cklength := rfl
@[simp] theorem State.done_iklength : (s.done).iklength = s.iklength := rfl
@[simp] theorem State.done_iter : (s.done).iter = s.iter := rfl
@[simp] theorem State.done_field : (s.done).field = s.field := rfl
@[simp] theorem State.done_topcCache : (s.done).topcCache = s.topcCache := rfl
@[simp] theorem State.done_sess : (s.done).sess = s.sess := rfl
@[simp] theorem State.done_err : (s.done).err = .ok := rfl
@[simp] theorem State.done_inst : (s.done).inst = s.inst := rfl
@[simp] theorem State.done_dbgEn : (s.done).dbgEn = s.dbgEn := rfl
@[simp] theorem State.done_cmdOp : (s.done).cmdOp = s.cmdOp := rfl
@[simp] theorem State.done_cmdA0 : (s.done).cmdA0 = s.cmdA0 := rfl
@[simp] theorem State.done_cmdA1 : (s.done).cmdA1 = s.cmdA1 := rfl
@[simp] theorem State.done_topcOut : (s.done).topcOut = s.topcOut := rfl
@[simp] theorem State.done_maca : (s.done).maca = s.maca := rfl
@[simp] theorem State.done_macs : (s.done).macs = s.macs := rfl
@[simp] theorem State.done_res : (s.done).res = s.res := rfl
@[simp] theorem State.done_ck : (s.done).ck = s.ck := rfl
@[simp] theorem State.done_ik : (s.done).ik = s.ik := rfl
@[simp] theorem State.done_ak : (s.done).ak = s.ak := rfl
@[simp] theorem State.done_aks : (s.done).aks = s.aks := rfl
@[simp] theorem State.done_dbg : (s.done).dbg = s.dbg := rfl
@[simp] theorem State.done_port : (s.done).port = s.port := rfl
@[simp] theorem State.done_readData : (s.done).readData = s.readData := rfl

/-! ## `emit` (R312): only the event history -/

@[simp] theorem State.emit_stateBuf (e : DbgEvent) : (s.emit e).stateBuf = s.stateBuf := rfl
@[simp] theorem State.emit_k (e : DbgEvent) : (s.emit e).k = s.k := rfl
@[simp] theorem State.emit_top (e : DbgEvent) : (s.emit e).top = s.top := rfl
@[simp] theorem State.emit_topcIn (e : DbgEvent) : (s.emit e).topcIn = s.topcIn := rfl
@[simp] theorem State.emit_rand (e : DbgEvent) : (s.emit e).rand = s.rand := rfl
@[simp] theorem State.emit_sqn (e : DbgEvent) : (s.emit e).sqn = s.sqn := rfl
@[simp] theorem State.emit_amf (e : DbgEvent) : (s.emit e).amf = s.amf := rfl
@[simp] theorem State.emit_klength (e : DbgEvent) : (s.emit e).klength = s.klength := rfl
@[simp] theorem State.emit_maclength (e : DbgEvent) : (s.emit e).maclength = s.maclength := rfl
@[simp] theorem State.emit_reslength (e : DbgEvent) : (s.emit e).reslength = s.reslength := rfl
@[simp] theorem State.emit_cklength (e : DbgEvent) : (s.emit e).cklength = s.cklength := rfl
@[simp] theorem State.emit_iklength (e : DbgEvent) : (s.emit e).iklength = s.iklength := rfl
@[simp] theorem State.emit_iter (e : DbgEvent) : (s.emit e).iter = s.iter := rfl
@[simp] theorem State.emit_field (e : DbgEvent) : (s.emit e).field = s.field := rfl
@[simp] theorem State.emit_topcCache (e : DbgEvent) : (s.emit e).topcCache = s.topcCache := rfl
@[simp] theorem State.emit_sess (e : DbgEvent) : (s.emit e).sess = s.sess := rfl
@[simp] theorem State.emit_err (e : DbgEvent) : (s.emit e).err = s.err := rfl
@[simp] theorem State.emit_inst (e : DbgEvent) : (s.emit e).inst = s.inst := rfl
@[simp] theorem State.emit_dbgEn (e : DbgEvent) : (s.emit e).dbgEn = s.dbgEn := rfl
@[simp] theorem State.emit_cmdOp (e : DbgEvent) : (s.emit e).cmdOp = s.cmdOp := rfl
@[simp] theorem State.emit_cmdA0 (e : DbgEvent) : (s.emit e).cmdA0 = s.cmdA0 := rfl
@[simp] theorem State.emit_cmdA1 (e : DbgEvent) : (s.emit e).cmdA1 = s.cmdA1 := rfl
@[simp] theorem State.emit_topcOut (e : DbgEvent) : (s.emit e).topcOut = s.topcOut := rfl
@[simp] theorem State.emit_maca (e : DbgEvent) : (s.emit e).maca = s.maca := rfl
@[simp] theorem State.emit_macs (e : DbgEvent) : (s.emit e).macs = s.macs := rfl
@[simp] theorem State.emit_res (e : DbgEvent) : (s.emit e).res = s.res := rfl
@[simp] theorem State.emit_ck (e : DbgEvent) : (s.emit e).ck = s.ck := rfl
@[simp] theorem State.emit_ik (e : DbgEvent) : (s.emit e).ik = s.ik := rfl
@[simp] theorem State.emit_ak (e : DbgEvent) : (s.emit e).ak = s.ak := rfl
@[simp] theorem State.emit_aks (e : DbgEvent) : (s.emit e).aks = s.aks := rfl
@[simp] theorem State.emit_dbg (e : DbgEvent) : (s.emit e).dbg = if s.dbgEn then s.dbg ++ [e] else s.dbg := rfl
@[simp] theorem State.emit_port (e : DbgEvent) : (s.emit e).port = s.port := rfl
@[simp] theorem State.emit_readData (e : DbgEvent) : (s.emit e).readData = s.readData := rfl

/-! ## `fEnd` (R246): only SESS and ERR -/

@[simp] theorem State.fEnd_stateBuf : (s.fEnd).stateBuf = s.stateBuf := rfl
@[simp] theorem State.fEnd_k : (s.fEnd).k = s.k := rfl
@[simp] theorem State.fEnd_top : (s.fEnd).top = s.top := rfl
@[simp] theorem State.fEnd_topcIn : (s.fEnd).topcIn = s.topcIn := rfl
@[simp] theorem State.fEnd_rand : (s.fEnd).rand = s.rand := rfl
@[simp] theorem State.fEnd_sqn : (s.fEnd).sqn = s.sqn := rfl
@[simp] theorem State.fEnd_amf : (s.fEnd).amf = s.amf := rfl
@[simp] theorem State.fEnd_klength : (s.fEnd).klength = s.klength := rfl
@[simp] theorem State.fEnd_maclength : (s.fEnd).maclength = s.maclength := rfl
@[simp] theorem State.fEnd_reslength : (s.fEnd).reslength = s.reslength := rfl
@[simp] theorem State.fEnd_cklength : (s.fEnd).cklength = s.cklength := rfl
@[simp] theorem State.fEnd_iklength : (s.fEnd).iklength = s.iklength := rfl
@[simp] theorem State.fEnd_iter : (s.fEnd).iter = s.iter := rfl
@[simp] theorem State.fEnd_field : (s.fEnd).field = s.field := rfl
@[simp] theorem State.fEnd_topcCache : (s.fEnd).topcCache = s.topcCache := rfl
@[simp] theorem State.fEnd_sess : (s.fEnd).sess = .ready := rfl
@[simp] theorem State.fEnd_err : (s.fEnd).err = .ok := rfl
@[simp] theorem State.fEnd_inst : (s.fEnd).inst = s.inst := rfl
@[simp] theorem State.fEnd_dbgEn : (s.fEnd).dbgEn = s.dbgEn := rfl
@[simp] theorem State.fEnd_cmdOp : (s.fEnd).cmdOp = s.cmdOp := rfl
@[simp] theorem State.fEnd_cmdA0 : (s.fEnd).cmdA0 = s.cmdA0 := rfl
@[simp] theorem State.fEnd_cmdA1 : (s.fEnd).cmdA1 = s.cmdA1 := rfl
@[simp] theorem State.fEnd_topcOut : (s.fEnd).topcOut = s.topcOut := rfl
@[simp] theorem State.fEnd_maca : (s.fEnd).maca = s.maca := rfl
@[simp] theorem State.fEnd_macs : (s.fEnd).macs = s.macs := rfl
@[simp] theorem State.fEnd_res : (s.fEnd).res = s.res := rfl
@[simp] theorem State.fEnd_ck : (s.fEnd).ck = s.ck := rfl
@[simp] theorem State.fEnd_ik : (s.fEnd).ik = s.ik := rfl
@[simp] theorem State.fEnd_ak : (s.fEnd).ak = s.ak := rfl
@[simp] theorem State.fEnd_aks : (s.fEnd).aks = s.aks := rfl
@[simp] theorem State.fEnd_dbg : (s.fEnd).dbg = s.dbg := rfl
@[simp] theorem State.fEnd_port : (s.fEnd).port = s.port := rfl
@[simp] theorem State.fEnd_readData : (s.fEnd).readData = s.readData := rfl

/-! ## `FieldReg` updates -/

@[simp] theorem FieldReg.setByte_bytes {cap : Nat} (f : FieldReg cap) (i : Nat) (d : Byte) :
    (f.setByte i d).bytes = f.bytes.setIfInBounds i d := rfl
@[simp] theorem FieldReg.setByte_len {cap : Nat} (f : FieldReg cap) (i : Nat) (d : Byte) :
    (f.setByte i d).len = f.len := rfl
@[simp] theorem FieldReg.setLen_bytes {cap : Nat} (f : FieldReg cap) (d : Byte) :
    (f.setLen d).bytes = f.bytes := rfl
@[simp] theorem FieldReg.setLen_len {cap : Nat} (f : FieldReg cap) (d : Byte) : (f.setLen d).len = d := rfl
@[simp] theorem writeOut_bytes (cap : Nat) (v : Bytes) : (writeOut cap v).bytes = fill cap v := rfl
@[simp] theorem writeOut_len (cap : Nat) (v : Bytes) :
    (writeOut cap v).len = BitVec.ofNat 8 v.length := rfl

/-- `endWith` on the two outcomes of its checks. -/
@[simp] theorem State.endWith_error {α : Type} (f : α → State) (e : Err) :
    s.endWith f (.error e) = .next (s.raise e) := rfl
@[simp] theorem State.endWith_ok {α : Type} (f : α → State) (a : α) : s.endWith f (.ok a) = .next (f a) := rfl

/-- `endWith` always answers: the error's effect, or the success of what its checks give. -/
theorem State.endWith_cases {α : Type} (f : α → State) (r : Except Err α) :
    (∃ e, r = .error e ∧ s.endWith f r = .next (s.raise e)) ∨
      (∃ a, r = .ok a ∧ s.endWith f r = .next (f a)) := by
  cases r with
  | error e => exact .inl ⟨e, rfl, rfl⟩
  | ok a => exact .inr ⟨a, rfl, rfl⟩

end Sys2Proof.Machine
end

