-- ==== Sys2Proof/Laws/Ops.lean ====
section
/-! SUPPORT. The shared operations over registers: zero-filled writes, and the host's byte reads and writes through
the register map. -/

namespace Sys2Proof.Machine

/-- `zeros` holds 0x00 everywhere. -/
@[simp] theorem getElem_zeros {n i : Nat} (h : i < n) : (zeros n)[i] = 0 := by simp [zeros]

/-- Byte `i` of a filled register: the value's byte, or 0x00 past it (R254). -/
@[simp] theorem getElem_fill {cap i : Nat} (v : Bytes) (h : i < cap) : (fill cap v)[i] = v.getD i 0 := by
  simp [fill]

/-- A register filled from its own bytes is itself. -/
theorem fill_toList {cap : Nat} (v : Vector Byte cap) : fill cap v.toList = v := by
  ext i h
  simp [h]

/-- The bytes of a register filled with a value of its size are that value. -/
theorem toList_fill {cap : Nat} {v : Bytes} (h : v.length = cap) : (fill cap v).toList = v := by
  apply List.ext_getElem
  · simp [h]
  · intro i h1 h2
    simp [h2]

/-- The first `n` bytes number `n`, if the register has them. -/
@[simp] theorem length_firstBytes {cap : Nat} (v : Vector Byte cap) (n : Nat) :
    (firstBytes v n).length = min n cap := by
  simp [firstBytes]

/-- A write to one register leaves every other register's bytes as they were (R83, R88). -/
theorem regByte_setRegByte_other (s : State) {r r' : Reg} (h : r ≠ r') (i j : Nat) (d : Byte) :
    (s.setRegByte r i d).regByte r' j = s.regByte r' j := by
  cases r <;> cases r' <;> first | rfl | exact absurd rfl h

/-- A byte inside the run is its element. -/
theorem byteAt_of_lt {n i : Nat} (v : Vector Byte n) (h : i < n) : byteAt v i = v[i] := by
  simp [byteAt, h]

/-- A write to one byte leaves the other bytes as they were. -/
theorem byteAt_set_other {n i j : Nat} (v : Vector Byte n) (d : Byte) (h : i ≠ j) :
    byteAt (v.setIfInBounds i d) j = byteAt v j := by
  simp [byteAt, Vector.getElem?_setIfInBounds_ne h]

/-- A byte written inside the run is what its byte then is. -/
theorem byteAt_set_self {n i : Nat} (v : Vector Byte n) (d : Byte) (h : i < n) :
    byteAt (v.setIfInBounds i d) i = d := by
  simp [byteAt, h]

/-- The row an address falls in is a row of the map, and holds the address. -/
theorem rowAt_mem {a : Nat} {row : RegRow} (h : rowAt a = some row) :
    row ∈ regMap ∧ row.base ≤ a ∧ a < row.base + row.bytes := by
  have hp := List.find?_some h
  have hm := List.mem_of_find?_eq_some h
  simp only [Bool.and_eq_true, decide_eq_true_eq] at hp
  exact ⟨hm, hp.1, hp.2⟩

/-- Two rows of the map with the same register are the same row (R92). -/
theorem regMap_reg_inj : ∀ r ∈ regMap, ∀ r' ∈ regMap, r.reg = r'.reg → r = r' := by decide +kernel

/-- No two rows of the map share an address (R92). -/
theorem regMap_disjoint : regMap.Pairwise fun r r' => r.base + r.bytes ≤ r'.base := by decide +kernel

/-! ## Option registers (R86) -/

/-- Both bytes written, low then high, are the register. -/
theorem setHalfByte_both (w v : Half) :
    setHalfByte (setHalfByte w 0 (v.extractLsb' 0 8)) 1 (v.extractLsb' 8 8) = v := by
  apply BitVec.eq_of_getLsbD_eq
  intro i hi
  rcases Nat.lt_or_ge i 8 with h | h
  · simp [setHalfByte, hi, h]
  · have e : 8 + (i - 8) = i := by omega
    simp [setHalfByte, hi, e, show ¬ i < 8 by omega, show i - 8 < 8 by omega]

/-- Writing a byte twice is writing it once. -/
theorem setHalfByte_twice (w : Half) (i : Nat) (d : Byte) :
    setHalfByte (setHalfByte w i d) i d = setHalfByte w i d := by
  apply BitVec.eq_of_getLsbD_eq
  intro j hj
  rcases Nat.lt_or_ge j 8 with h | h
  · by_cases hi : i = 0 <;> simp [setHalfByte, hi, hj, h]
  · have e : 8 + (j - 8) = j := by omega
    by_cases hi : i = 0 <;>
      simp [setHalfByte, hi, hj, e, show ¬ j < 8 by omega, BitVec.getLsbD_of_ge d j h]

/-- A byte written is what it then is. -/
theorem halfByte_set_self (w : Half) (i : Nat) (d : Byte) : halfByte (setHalfByte w i d) i = d := by
  apply BitVec.eq_of_getLsbD_eq
  intro j hj
  by_cases hi : i = 0
  · simp [halfByte, setHalfByte, hi, hj, show j < 16 by omega]
  · simp [halfByte, setHalfByte, hi, hj, show 8 + j < 16 by omega]

/-- The other byte is as it was. -/
theorem halfByte_set_other (w : Half) {i j : Nat} (hi : i < 2) (hj : j < 2) (h : i ≠ j) (d : Byte) :
    halfByte (setHalfByte w i d) j = halfByte w j := by
  apply BitVec.eq_of_getLsbD_eq
  intro m hm
  have hcase : (i = 0 ∧ j = 1) ∨ (i = 1 ∧ j = 0) := by omega
  rcases hcase with ⟨rfl, rfl⟩ | ⟨rfl, rfl⟩
  · simp [halfByte, setHalfByte, hm, show 8 + m < 16 by omega]
  · simp [halfByte, setHalfByte, hm, show m < 16 by omega]

/-! ## Reads and writes by row (R82, R83) -/

theorem readByte_row {a : Addr} {row : RegRow} (h : rowAt a.toNat = some row) (s : State) :
    s.readByte a = s.regByte row.reg (a.toNat - row.base) := by
  simp [State.readByte, h]

theorem readByte_reserved {a : Addr} (h : rowAt a.toNat = none) (s : State) : s.readByte a = 0 := by
  simp [State.readByte, h]

theorem writeByte_row_on {a : Addr} {row : RegRow} (h : rowAt a.toNat = some row) {s : State}
    (hw : writable row.access s.sess = true) (d : Byte) :
    s.writeByte a d = s.setRegByte row.reg (a.toNat - row.base) d := by
  simp [State.writeByte, h, hw]

theorem writeByte_row_off {a : Addr} {row : RegRow} (h : rowAt a.toNat = some row) {s : State}
    (hw : writable row.access s.sess = false) (d : Byte) : s.writeByte a d = s := by
  simp [State.writeByte, h, hw]

theorem writeByte_reserved {a : Addr} (h : rowAt a.toNat = none) (s : State) (d : Byte) : s.writeByte a d = s := by
  simp [State.writeByte, h]

/-- A host write changes no register of class RO, no event, and neither end of the port. -/
theorem setRegByte_keeps (s : State) (r : Reg) (i : Nat) (d : Byte) :
    let t := s.setRegByte r i d
    t.sess = s.sess ∧ t.err = s.err ∧ t.inst = s.inst ∧ t.topcCache = s.topcCache ∧ t.topcOut = s.topcOut ∧
      t.maca = s.maca ∧ t.macs = s.macs ∧ t.res = s.res ∧ t.ck = s.ck ∧ t.ik = s.ik ∧ t.ak = s.ak ∧
      t.aks = s.aks ∧ t.dbg = s.dbg ∧ t.port = s.port ∧ t.readData = s.readData := by
  cases r <;> exact ⟨rfl, rfl, rfl, rfl, rfl, rfl, rfl, rfl, rfl, rfl, rfl, rfl, rfl, rfl, rfl⟩

/-- Writing a byte of a register twice is writing it once. -/
theorem setRegByte_twice (s : State) (r : Reg) (i : Nat) (d : Byte) :
    (s.setRegByte r i d).setRegByte r i d = s.setRegByte r i d := by
  cases r <;> simp [State.setRegByte, FieldReg.setByte, FieldReg.setLen, setHalfByte_twice]

end Sys2Proof.Machine
end

