-- ==== Sys2Proof/Laws/Codec.lean ====
section
/-! SUPPORT. The bytes of a packed buffer and of an extracted field. -/

namespace Sys2Proof.Machine

/-- Byte `p` of a buffer after a field is packed (R182). -/
theorem getElem_pushField (b : Buf) (off : Nat) (d : Bytes) {p : Nat} (h : p < 200) :
    (pushField b off d)[p] =
      if off ≤ p ∧ p < off + d.length then d.getD (off + d.length - 1 - p) 0 else b[p] := by
  unfold pushField
  simp

/-- A packed byte outside the field is the buffer's own (R182). -/
theorem getElem_pushField_outside (b : Buf) (off : Nat) (d : Bytes) {p : Nat} (h : p < 200)
    (ho : ¬ (off ≤ p ∧ p < off + d.length)) : (pushField b off d)[p] = b[p] := by
  rw [getElem_pushField b off d h, if_neg ho]

/-- An extracted field has the length asked for (R183). -/
theorem length_pullField (b : Buf) {off n : Nat} (h : off + n ≤ 200) : (pullField b off n).length = n := by
  simp [pullField]
  omega

/-- Byte `i` of an extracted field (R183). -/
theorem getElem_pullField (b : Buf) {off n i : Nat} (h : off + n ≤ 200) (hi : i < n) :
    (pullField b off n)[i]'(by rw [length_pullField b h]; exact hi) = b[off + n - 1 - i]'(by omega) := by
  have hl : (n ⊓ (200 - off)) = n := by omega
  have hx : off + (n - 1 - i) = off + n - 1 - i := by omega
  simp [pullField, List.getElem_reverse, hl, hx]

/-- The initial buffer's bytes (R180). -/
theorem getElem_newState {p : Nat} (h : p < 200) :
    newState[p] = if p = 96 then 0x1F else if p = 135 then 0x80 else 0 := by
  unfold newState
  simp

end Sys2Proof.Machine
end

