-- ==== Sys2Proof/Laws/Decode.lean ====
section
/-! SUPPORT. The fields of an assembled command word, and a word from its fields (R110). -/

namespace Sys2Proof

@[simp] theorem opField_cmdWord (op a0 a1 : Byte) : opField (cmdWord op a0 a1) = op := by
  apply BitVec.eq_of_getLsbD_eq
  intro i hi
  have h16 : i < 16 := by omega
  simp [opField, cmdWord, hi, h16]
  omega

@[simp] theorem a0Field_cmdWord (op a0 a1 : Byte) : a0Field (cmdWord op a0 a1) = a0 := by
  apply BitVec.eq_of_getLsbD_eq
  intro i hi
  simp [a0Field, cmdWord, hi, show 8 + i < 16 by omega, show 8 + i < 24 by omega]

@[simp] theorem a1Field_cmdWord (op a0 a1 : Byte) : a1Field (cmdWord op a0 a1) = a1 := by
  apply BitVec.eq_of_getLsbD_eq
  intro i hi
  have hop : op.getLsbD (16 + i) = false := BitVec.getLsbD_of_ge _ _ (by omega)
  have ha0 : a0.getLsbD (16 + i - 8) = false := BitVec.getLsbD_of_ge _ _ (by omega)
  simp [a1Field, cmdWord, hi, hop, ha0, show 16 + i < 24 by omega]

/-- A command word is its three fields. -/
theorem cmdWord_fields (w : CmdWord) : cmdWord (opField w) (a0Field w) (a1Field w) = w := by
  apply BitVec.eq_of_getLsbD_eq
  intro i hi
  simp only [cmdWord, opField, a0Field, a1Field]
  rcases Nat.lt_or_ge i 8 with h | h
  · simp [hi, h, show i < 16 by omega]
  · rcases Nat.lt_or_ge i 16 with h' | h'
    · have e : 8 + (i - 8) = i := by omega
      simp [hi, h', e, show ¬ i < 8 by omega, show i - 8 < 8 by omega]
    · have e : 16 + (i - 16) = i := by omega
      simp [hi, e, show ¬ i < 16 by omega, show ¬ i < 8 by omega, show ¬ i - 8 < 8 by omega,
        show i - 16 < 8 by omega]

/-- Decoding reads the three fields of the word and nothing else (R114). -/
@[simp] theorem decode_cmdWord (op a0 a1 : Byte) :
    decode (cmdWord op a0 a1) = decodeFields op a0 a1 := by
  simp [decode]

end Sys2Proof
end

