-- ==== Sys2Proof/Laws/Driver.lean ====
section
/-! SUPPORT. What the shared parts of the driver can do: the checks, and the loop of a derivation. -/

namespace Sys2Proof.Machine

/-- `ResolveKBits` succeeds exactly on legal key lengths, with the key's bit-length (R218). -/
theorem resolveKBits_ok {s : State} (h : s.keyOk) : resolveKBits s = .ok (8 * s.k.len.toNat) := by
  obtain ⟨h1, h2⟩ := h
  simp only [resolveKBits]
  rw [if_neg (by omega), if_neg (by omega)]

/-- Otherwise it raises INVALID_PARAMETER (R218). -/
theorem resolveKBits_error {s : State} (h : ¬ s.keyOk) : resolveKBits s = .error .invalidParameter := by
  simp only [resolveKBits]
  split
  · rfl
  · split
    · rfl
    · exact absurd ⟨by omega, by omega⟩ h

/-- The events of `n` applications of `f` to `b`, indices from `j` (R243). -/
def loopEvents (f : Buf → Buf) (label : Family) (n j : Nat) (b : Buf) : List DbgEvent :=
  (List.range n).map fun m => ⟨label, BitVec.ofNat 8 (j + m), f^[m + 1] b⟩

/-- The first of the events, and the events of the other applications. -/
theorem loopEvents_succ (f : Buf → Buf) (label : Family) (n j : Nat) (b : Buf) :
    loopEvents f label (n + 1) j b =
      ⟨label, BitVec.ofNat 8 j, f b⟩ :: loopEvents f label n (j + 1) (f b) := by
  have e : ∀ m, j + 1 + m = j + m.succ := fun m => by omega
  simp [loopEvents, List.range_succ_eq_map, Function.comp_def, e]

/-- The loop of `Iterate` applies the permutation `n` times; of the state it changes the event history alone (R243).
The permutation is generalized before the case split, so that no check of this proof evaluates it. -/
theorem iterLoop_eq (label : Family) (n j : Nat) (b : Buf) (s : State) :
    iterLoop label n j b s =
      (permute^[n] b,
        { s with dbg := if s.dbgEn then s.dbg ++ loopEvents permute label n j b else s.dbg }) := by
  induction n generalizing j b s with
  | zero => simp [iterLoop, loopEvents]
  | succ n ih =>
    rw [iterLoop, ih, loopEvents_succ]
    clear ih
    generalize permute = f
    cases hd : s.dbgEn <;> simp [State.emit, hd]

/-! ## Codes and the configuration byte (R213 to R219) -/

/-- A family's code names it (R118). -/
@[simp] theorem familyOfCode_familyCode (fam : Family) : familyOfCode (familyCode fam) = some fam := by
  cases fam <;> rfl

/-- The MAC code exists exactly for the legal lengths (R214). -/
theorem macCode_eq_none {n : Nat} : macCode n = none ↔ ¬ (n = 64 ∨ n = 128 ∨ n = 256) := by
  unfold macCode
  split <;> simp_all

/-- The RES code exists exactly for the legal lengths (R216). -/
theorem resCode_eq_none {n : Nat} : resCode n = none ↔ ¬ (n = 32 ∨ n = 64 ∨ n = 128 ∨ n = 256) := by
  unfold resCode
  split <;> simp_all

/-- The CK and IK codes exist exactly for the legal lengths (R215, R217). -/
theorem sessionKeyCode_eq_none {n i : Nat} : sessionKeyCode n i = none ↔ ¬ (n = 128 ∨ n = 256) := by
  unfold sessionKeyCode
  split <;> simp_all

/-- With legal lengths the selector gives a byte (R219). -/
theorem instByte_ok {s : State} {fam : Family} (h : s.lengthsOk fam) (kbits : Nat) :
    ∃ v, instByte fam kbits s = .ok v := by
  have hm : s.macOk → ∀ star, ∃ v, macInstByte star s.maclength.toNat kbits = .ok v := by
    intro hm star
    cases hc : macCode s.maclength.toNat with
    | none => exact absurd hm (macCode_eq_none.mp hc)
    | some m =>
      simp only [macInstByte, hc]
      exact ⟨_, rfl⟩
  cases fam with
  | topc => exact ⟨_, rfl⟩
  | f1 => exact hm h 0
  | f1star => exact hm h (ibit 0)
  | f2345 =>
    obtain ⟨h1, h2, h3⟩ := h
    obtain ⟨r, hr⟩ := Option.ne_none_iff_exists'.mp fun hn => absurd h1 (resCode_eq_none.mp hn)
    obtain ⟨c, hc⟩ := Option.ne_none_iff_exists'.mp fun hn => absurd h2 (sessionKeyCode_eq_none (i := 5) |>.mp hn)
    obtain ⟨i, hi⟩ := Option.ne_none_iff_exists'.mp fun hn => absurd h3 (sessionKeyCode_eq_none (i := 6) |>.mp hn)
    simp only [instByte, keysInstByte, hr, hc, hi]
    exact ⟨_, rfl⟩
  | f5star => exact ⟨_, rfl⟩

/-- Without them it raises INVALID_PARAMETER (R219). -/
theorem instByte_error {s : State} {fam : Family} (h : ¬ s.lengthsOk fam) (kbits : Nat) :
    instByte fam kbits s = .error .invalidParameter := by
  cases fam with
  | topc => exact absurd trivial h
  | f1 => simp only [instByte, macInstByte, macCode_eq_none.mpr h]
  | f1star => simp only [instByte, macInstByte, macCode_eq_none.mpr h]
  | f2345 =>
    simp only [instByte, keysInstByte]
    split
    · rename_i r c i hr hc hi
      refine absurd ⟨?_, ?_, ?_⟩ h
      · exact not_not.mp fun hn => by rw [resCode_eq_none.mpr hn] at hr; cases hr
      · exact not_not.mp fun hn => by rw [sessionKeyCode_eq_none.mpr hn] at hc; cases hc
      · exact not_not.mp fun hn => by rw [sessionKeyCode_eq_none.mpr hn] at hi; cases hi
    · rfl
  | f5star => exact absurd trivial h

/-! ## The F-command prologue (R246) -/

/-- The lengths `FBegin` checks for a family, past the key's and the family's own. -/
abbrev packedOk (fam : Family) (s : State) : Prop :=
  s.rand.len.toNat = 16 ∧ (fam = .f1 ∨ fam = .f1star → s.sqn.len.toNat = 6 ∧ s.amf.len.toNat = 2)

/-- With no session `FBegin` raises SEQUENCE. -/
theorem fBegin_none {s : State} (h : s.sess = .none) (fam : Family) : fBegin fam s = .error .sequence := by
  simp only [fBegin, if_pos h]

/-- On legal lengths it gives the configuration byte and resolves TOPc. -/
theorem fBegin_ok {s : State} {fam : Family} (hn : s.sess ≠ .none) (hk : s.keyOk) (hl : s.lengthsOk fam)
    (hp : packedOk fam s) :
    ∃ v, instByte fam (8 * s.k.len.toNat) s = .ok v ∧
      fBegin fam s = .ok (v, resolveTopc (8 * s.k.len.toNat) s) := by
  obtain ⟨v, hv⟩ := instByte_ok hl (8 * s.k.len.toNat)
  refine ⟨v, hv, ?_⟩
  simp only [fBegin, if_neg hn, resolveKBits_ok hk, hv]
  rw [if_neg (not_not.mpr hp.1), if_neg]
  rintro ⟨h1, h2⟩
  have := hp.2 (of_decide_eq_true h1)
  omega

/-- Otherwise it raises INVALID_PARAMETER. -/
theorem fBegin_error {s : State} {fam : Family} (hn : s.sess ≠ .none)
    (h : ¬ (s.keyOk ∧ s.lengthsOk fam ∧ packedOk fam s)) : fBegin fam s = .error .invalidParameter := by
  simp only [fBegin, if_neg hn]
  by_cases hk : s.keyOk
  · rw [resolveKBits_ok hk]
    by_cases hl : s.lengthsOk fam
    · obtain ⟨v, hv⟩ := instByte_ok hl (8 * s.k.len.toNat)
      simp only [hv]
      by_cases hr : s.rand.len.toNat = 16
      · rw [if_neg (not_not.mpr hr), if_pos]
        by_cases hf : fam = .f1 ∨ fam = .f1star
        · refine ⟨decide_eq_true hf, ?_⟩
          by_contra hc
          exact h ⟨hk, hl, hr, fun _ => by omega⟩
        · exact absurd ⟨hk, hl, hr, fun hf' => absurd hf' hf⟩ h
      · rw [if_pos hr]
    · simp only [instByte_error hl]
  · simp only [resolveKBits_error hk]

/-- TOPc is derived on an UNINITIALIZED session alone. -/
theorem resolveTopc_other {s : State} (h : s.sess ≠ .uninitialized) (kbits : Nat) : resolveTopc kbits s = s := by
  simp only [resolveTopc, if_neg h]

/-- `WriteOut` of an extracted field has the field's length (R183, R254). -/
theorem writeOut_pullField (cap : Nat) (b : Buf) {off n : Nat} (h : off + n ≤ 200) :
    writeOut cap (pullField b off n) = ⟨fill cap (pullField b off n), BitVec.ofNat 8 n⟩ := by
  simp only [writeOut, length_pullField b h]

/-- A check that may raise ends in one of two next states. -/
theorem endWith_cases {α : Type} (s : State) (f : α → State) (c : Except Err α) :
    (∃ e, c = .error e ∧ s.endWith f c = .next (s.raise e)) ∨ (∃ a, c = .ok a ∧ s.endWith f c = .next (f a)) := by
  cases c with
  | error e => exact .inl ⟨e, rfl, rfl⟩
  | ok a => exact .inr ⟨a, rfl, rfl⟩

end Sys2Proof.Machine
end

