-- ==== Sys2Proof/Laws/HostPort.lean ====
section
/-! SUPPORT. A host transaction as the step runs it, the command placed at the port, and the class of the register at
each kind of address. -/

namespace Sys2Proof.Machine

/-- A step with a transaction to come runs it (R93), but in a session state the host never sees. -/
theorem step_transact {s : State} {r : HostReq} {rest : List HostReq} (h : s.port = r :: rest)
    (hs : s.sess ≠ .topcResolved) : step s = transact r { s with port := rest } := by
  simp [step, hostStep, h, hs]

/-- A step with none to come changes nothing. -/
theorem step_idle {s : State} (h : s.port = []) : step s = .next s := by
  simp [step, hostStep, h]

/-- What a CMD_OP write stores (R47). -/
theorem writeByte_cmdOp (s : State) (d : Byte) : s.writeByte cmdOpAddr d = { s with cmdOp := d } := rfl

/-- A host write to another address stores its byte and does nothing else (R83). -/
theorem transact_write {a : Addr} (h : a ≠ cmdOpAddr) (d : Byte) (s : State) :
    transact (.write a d) s = .next (s.writeByte a d) := by
  simp [transact, h]

/-- The engine's turn, when the word decodes. -/
theorem issue_ok {s : State} {i : Instr} (h : decode s.commandWord = .ok i) : issue s = exec i s := by
  simp [issue, h]

/-- The engine's turn, when it does not. -/
theorem issue_error {s : State} {e : DecodeError} (h : decode s.commandWord = .error e) :
    issue s = .next (s.raise .illegalCommand) := by
  simp [issue, h]

/-- The plain RW registers and their class. -/
theorem rowAt_plain : ∀ a : Fin 1024, plainAddr a.val → ∃ row, rowAt a.val = some row ∧ row.access = .rw ∧
    row.reg ∈ [Reg.STATE, .FIELD, .CMD_A0, .CMD_A1] := by decide +kernel

/-- The RW-L registers and their class. -/
theorem rowAt_locked : ∀ a : Fin 1024, lockedAddr a.val → ∃ row, rowAt a.val = some row ∧ row.access = .rwL ∧
    row.reg ∈ inputRows.tail.map (·.reg) := by decide +kernel

/-- The RO registers' class. -/
theorem rowAt_readOnly : ∀ a : Fin 1024, readOnlyAddr a.val → ∃ row, rowAt a.val = some row ∧ row.access = .ro := by
  decide +kernel

/-- A reserved address is in no row. -/
theorem rowAt_reserved : ∀ a : Fin 1024, reservedAddr a.val → rowAt a.val = none := by decide +kernel

/-- The address of byte `i` of a row's register falls in that row, at that byte (R92). -/
theorem rowAt_regAddr : ∀ row ∈ regMap, ∀ i : Fin 200, i.val < row.bytes →
    rowAt (regAddr row.base i).toNat = some row ∧ (regAddr row.base i).toNat - row.base = i.val := by decide +kernel

/-- What the host reads there (R82, R92). -/
theorem readByte_regAddr {row : RegRow} (hrow : row ∈ regMap) {i : Nat} (hi : i < row.bytes) (h : i < 200) (s : State) :
    s.readByte (regAddr row.base i) = s.regByte row.reg i := by
  obtain ⟨hat, hoff⟩ := rowAt_regAddr row hrow ⟨i, h⟩ hi
  rw [readByte_row hat, hoff]

end Sys2Proof.Machine
end

