-- ==== Sys2Proof/Laws/PerInstr.lean ====
section
/-! SUPPORT. One statement per command about its word: the word a term encodes to has the fixed bits of its row of
spec/opcode_table.json ("mask" and "match", numbered as the table numbers them). -/

namespace Sys2Proof.Laws.TableRow

/-- The "mask" of a command's row. -/
def mask : Instr → CmdWord
  | .permute _ => 0xFF00FF
  | .pushField _ _ => 0x0000FF
  | .pullField _ _ => 0x0000FF
  | .selectInst _ => 0xFF00FF
  | .nop => 0xFFFFFF
  | .stateInit => 0xFFFFFF
  | .sessionInit => 0xFFFFFF
  | .sessionClose => 0xFFFFFF
  | .computeTopc => 0xFFFFFF
  | .f1 => 0xFFFFFF
  | .f1star => 0xFFFFFF
  | .f2345 => 0xFFFFFF
  | .f5star => 0xFFFFFF

/-- The "match" of a command's row. -/
def fixedBits : Instr → CmdWord
  | .nop => 0x000000
  | .stateInit => 0x000001
  | .permute _ => 0x000002
  | .pushField _ _ => 0x000003
  | .pullField _ _ => 0x000004
  | .selectInst _ => 0x000005
  | .sessionInit => 0x000010
  | .sessionClose => 0x000011
  | .computeTopc => 0x000012
  | .f1 => 0x000013
  | .f1star => 0x000014
  | .f2345 => 0x000015
  | .f5star => 0x000016

/-- A command's word has its row's fixed bits. -/
def Statement (i : Instr) : Prop := encode i &&& mask i = fixedBits i

/-- A word of format OL keeps its opcode under the mask of its row. -/
theorem opcode_of_OL (op a0 a1 : Byte) : cmdWord op a0 a1 &&& 0x0000FF = op.setWidth 24 := by
  have hm : ∀ i < 24, (0x0000FF : CmdWord).getLsbD i = decide (i < 8) := by decide
  apply BitVec.eq_of_getLsbD_eq
  intro i hi
  rw [BitVec.getLsbD_and, hm i hi]
  rcases Nat.lt_or_ge i 8 with h | h
  · simp [cmdWord, hi, h, show i < 16 by omega]
  · simp [show ¬ i < 8 by omega, BitVec.getLsbD_of_ge op i h]

theorem nop : Statement .nop := by unfold Statement; decide
theorem stateInit : Statement .stateInit := by unfold Statement; decide
theorem permute (len : Byte) : Statement (.permute len) := by
  unfold Statement; revert len; decide +kernel
theorem pushField (off len : Byte) : Statement (.pushField off len) := opcode_of_OL 0x03 off len
theorem pullField (off len : Byte) : Statement (.pullField off len) := opcode_of_OL 0x04 off len
theorem selectInst (sel : Byte) : Statement (.selectInst sel) := by
  unfold Statement; revert sel; decide +kernel
theorem sessionInit : Statement .sessionInit := by unfold Statement; decide
theorem sessionClose : Statement .sessionClose := by unfold Statement; decide
theorem computeTopc : Statement .computeTopc := by unfold Statement; decide
theorem f1 : Statement .f1 := by unfold Statement; decide
theorem f1star : Statement .f1star := by unfold Statement; decide
theorem f2345 : Statement .f2345 := by unfold Statement; decide
theorem f5star : Statement .f5star := by unfold Statement; decide

end Sys2Proof.Laws.TableRow
end

