-- ==== Sys2Proof/Laws/Permutation.lean ====
section
/-! SUPPORT. The lanes and bytes of the permutation engine, one by one. -/

namespace Sys2Proof.Machine

/-- Lane `x + 5 y` of an array given by coordinates. -/
theorem laneAt_lanesOf (f : Nat → Nat → Lane) (x y : Nat) :
    laneAt (lanesOf f) x y = f (x % 5) (y % 5) := by
  have h : (x % 5 + 5 * (y % 5)) % 5 = x % 5 ∧ (x % 5 + 5 * (y % 5)) / 5 = y % 5 := by omega
  simp [laneAt, lanesOf, h.1, h.2]

/-- Two arrays with the same lanes by coordinates are equal (R141). -/
theorem lanes_ext {a a' : Lanes} (h : ∀ x y, x < 5 → y < 5 → laneAt a x y = laneAt a' x y) : a = a' := by
  apply Vector.ext
  intro i hi
  have hc : i % 5 + 5 * (i / 5 % 5) = i := by omega
  have := h (i % 5) (i / 5) (by omega) (by omega)
  simpa [laneAt, hc] using this

/-- Byte `p` of the stored buffer (R149). -/
theorem getElem_storeLanes (a : Lanes) {p : Nat} (h : p < 200) :
    (storeLanes a)[p] = (a[p / 8]'(by omega)).extractLsb' (8 * (p % 8)) 8 := by
  simp [storeLanes]

/-- Lane `i` of the loaded array (R140, R141). -/
theorem getElem_loadLanes (b : Buf) {i : Nat} (h : i < 25) : (loadLanes b)[i] = lane b i := by
  simp [loadLanes]

/-- The permutation, unfolded once: load, twenty-four rounds, store (R140, R151). -/
theorem permute_eq (b : Buf) : permute b = storeLanes (rounds (loadLanes b)) := by
  unfold permute
  rfl

/-- Bit `z` of a byte at place `k` of a lane (R84). -/
theorem getLsbD_laneByte (b : Buf) (p : Nat) {k z : Nat} (hz : z < 64) :
    (laneByte b p k).getLsbD z = (decide (k = z / 8) && (byteAt b p).getLsbD (z % 8)) := by
  by_cases hlt : z < 8 * k
  · simp [laneByte, hz, hlt, show ¬ k = z / 8 by omega]
  · have hbit : (laneByte b p k).getLsbD z = (byteAt b p).getLsbD (z - 8 * k) := by simp [laneByte, hz, hlt]
    rw [hbit]
    by_cases hk : k = z / 8
    · simp [hk, show z - 8 * (z / 8) = z % 8 by omega]
    · simp [hk, BitVec.getLsbD_of_ge (byteAt b p) (z - 8 * k) (by omega)]

end Sys2Proof.Machine
end

