-- ==== Sys2Proof/Tests/Slice0.lean ====
section
/-! SUPPORT. The author's tests: the well-formedness smoke test, the decoding of words written out from the encoding
tables of spec/30_encoding.md, one or two single-step tests per command with the expected results of
spec/95_test_vectors.md, and a witness for the hypotheses of each statement. -/

namespace Sys2Proof.Tests

open Sys2Proof Sys2Proof.Machine

/-! ## Well-formedness (R114, R115) -/

theorem test_wellFormed_refuses_selector_5 : (Instr.selectInst 5).wellFormed = false := by decide
theorem test_wellFormed_refuses_selector_255 : (Instr.selectInst 255).wellFormed = false := by decide
theorem test_wellFormed_takes_selector_4 : (Instr.selectInst 4).wellFormed = true := by decide

/-! ## Decoding: a word per constructor, `A1 << 16 | A0 << 8 | OP` by R110, R111 and R113 -/

theorem test_decode_nop : decode 0x000000 = .ok .nop := by decide
theorem test_decode_stateInit : decode 0x000001 = .ok .stateInit := by decide
/-- PERMUTE 200: A0 = 0xC8, A1 = 0, OP = 0x02 (PV8). -/
theorem test_decode_permute : decode 0b000000001100100000000010 = .ok (.permute 200) := by decide
/-- PUSH_FIELD 168, 32: A0 = 0xA8, A1 = 0x20, OP = 0x03 (CV3). -/
theorem test_decode_pushField : decode 0b001000001010100000000011 = .ok (.pushField 168 32) := by decide
/-- PULL_FIELD 96, 1: A0 = 0x60, A1 = 0x01, OP = 0x04 (CV3). -/
theorem test_decode_pullField : decode 0b000000010110000000000100 = .ok (.pullField 96 1) := by decide
/-- INSTANCE F1STAR: A0 = 2, A1 = 0, OP = 0x05 (IV5). -/
theorem test_decode_selectInst : decode 0b000000000000001000000101 = .ok (.selectInst 2) := by decide
theorem test_decode_sessionInit : decode 0x000010 = .ok .sessionInit := by decide
theorem test_decode_sessionClose : decode 0x000011 = .ok .sessionClose := by decide
theorem test_decode_computeTopc : decode 0x000012 = .ok .computeTopc := by decide
theorem test_decode_f1 : decode 0x000013 = .ok .f1 := by decide
theorem test_decode_f1star : decode 0x000014 = .ok .f1star := by decide
theorem test_decode_f2345 : decode 0x000015 = .ok .f2345 := by decide
theorem test_decode_f5star : decode 0x000016 = .ok .f5star := by decide

/-- The edges of the unassigned opcodes (R115). -/
theorem test_decode_unassigned :
    [0x000006, 0x00000F, 0x000017, 0x0000FF].all fun w => decode w = .error .unassignedOpcode := by decide
/-- An argument that must be zero, in formats N, L and S (R111). -/
theorem test_decode_nonzero_argument :
    [0x000100, 0x010001, 0x000116, 0x01C802, 0x010205].all fun w => decode w = .error .nonzeroArgument := by decide
theorem test_decode_selector_range : [0x000505, 0x00FF05].all fun w => decode w = .error .selectorRange := by decide

/-- The word of each row of spec/opcode_table.json with zero operands, by that table's numbering of its bits. -/
theorem test_decodeTableWord :
    [0x00, 0x01, 0x02, 0x03, 0x04, 0x05, 0x10, 0x11, 0x12, 0x13, 0x14, 0x15, 0x16].map (decodeTableWord 24) =
      [Instr.nop, .stateInit, .permute 0, .pushField 0 0, .pullField 0 0, .selectInst 0, .sessionInit, .sessionClose,
        .computeTopc, .f1, .f1star, .f2345, .f5star].map some := by decide

/-! ## States to start from -/

/-- A property of the next state; false of a stop. -/
def next (o : Host.Outcome State Fault Refusal) (p : State → Bool) : Bool :=
  match o with
  | .next t => p t
  | .fault _ => false
  | .refused _ => false

/-- A field register of `cap` bytes and its length, from its value. -/
def reg (cap : Nat) (v : Bytes) : FieldReg cap := writeOut cap v

/-- The TS1 inputs of spec/95_test_vectors.md, no session. -/
def ts1 : State := { State.reset with
  k := reg 32 (List.replicate 16 0xAB)
  top := reg 32 (List.replicate 32 0x55)
  rand := reg 16 (List.replicate 16 0x42)
  sqn := reg 6 (List.replicate 6 0x11)
  amf := reg 2 (List.replicate 2 0xFF)
  maclength := 64
  reslength := 32
  cklength := 128
  iklength := 128 }

/-- TS1's TOPc, as spec/95_test_vectors.md lists it. -/
def ts1Topc : Bytes := [
  0xBD, 0x04, 0xD9, 0x53, 0x0E, 0x87, 0x51, 0x3C, 0x5D, 0x83, 0x7A, 0xC2, 0xAD, 0x95, 0x46, 0x23,
  0xA8, 0xE2, 0x33, 0x0C, 0x11, 0x53, 0x05, 0xA7, 0x3E, 0xB4, 0x5D, 0x1F, 0x40, 0xCC, 0xCB, 0xFF]

/-- TOPC_IN holding TS1's TOPc. -/
def ts1TopcIn : FieldReg 32 := ⟨fill 32 ts1Topc, 32⟩

/-- TS1 with a session that was opened from its TOPc. -/
def ts1Ready : State := { ts1 with topcIn := ts1TopcIn, topcCache := ts1TopcIn.bytes, sess := .ready }

/-- TS1 with a session that was opened from its TOP, before the first F-command. -/
def ts1Open : State := { ts1 with sess := .uninitialized }

/-- TS1 with the longest key and every output at its longest. -/
def ts1Wide : State := { ts1 with
  k := reg 32 (List.replicate 32 0xAB)
  klength := 256
  maclength := 256
  reslength := 256
  cklength := 256
  iklength := 256 }

/-! ## Commands against spec/95_test_vectors.md -/

/-- PV2: lane 0 of the permuted zero state is F1258F7940E1DDE7, and its last byte is EA. -/
theorem test_permute_pv2 : next (exec (.permute 200) State.reset) (fun t =>
    t.stateBuf.toList.take 8 = [0xE7, 0xDD, 0xE1, 0x40, 0x79, 0x8F, 0x25, 0xF1] ∧ byteAt t.stateBuf 199 = 0xEA ∧
      t.err = .ok) = true := by
  decide +kernel

/-- PV8: lengths 199 and 201 raise INVALID_LENGTH. -/
theorem test_permute_lengths : next (exec (.permute 199) State.reset) (fun t => t.err = .invalidLength) ∧
    next (exec (.permute 201) State.reset) (fun t => t.err = .invalidLength) := by decide +kernel

/-- PV1: the output of round 0, row y = 1. -/
theorem test_round0_pv1 : let a := keccakRound (loadLanes newState) 1
    [laneAt a 0 1, laneAt a 1 1, laneAt a 2 1, laneAt a 3 1, laneAt a 4 1] =
      [0x00000001F0000008, 0x0007D00000000000, 0x1000000000000008, 0x0007D001F0000000, 0x1000000000000000] := by
  decide +kernel

/-- CV1: the padded empty state. -/
theorem test_stateInit : next (exec .stateInit State.reset) (fun t =>
    byteAt t.stateBuf 96 = 0x1F ∧ byteAt t.stateBuf 135 = 0x80 ∧ byteAt t.stateBuf 97 = 0) = true := by
  decide +kernel

/-- CV2: FF 01 at offset 56 stands as 01 FF. -/
theorem test_pushField_reverses : next (exec (.pushField 56 2) { State.reset with field := fill 32 [0xFF, 0x01] })
    (fun t => byteAt t.stateBuf 56 = 0x01 ∧ byteAt t.stateBuf 57 = 0xFF ∧ byteAt t.stateBuf 58 = 0) = true := by
  decide +kernel

/-- CV3: the bounds of PUSH_FIELD. -/
theorem test_pushField_bounds :
    [(168, 32), (199, 1), (200, 0)].all (fun p => next (exec (.pushField p.1 p.2) State.reset) fun t => t.err = .ok) ∧
    [(169, 32), (201, 0), (0, 33)].all (fun p =>
      next (exec (.pushField p.1 p.2) State.reset) fun t => t.err = .invalidParameter) := by decide +kernel

/-- CV2: bytes 64 CD 7A 65 at offset 0 are read as 65 7A CD 64, and FIELD is zero-filled. -/
theorem test_pullField_reverses : next (exec (.pullField 0 4)
    { State.reset with stateBuf := fill 200 [0x64, 0xCD, 0x7A, 0x65], field := fill 32 (List.replicate 32 0xEE) })
    (fun t => t.field = fill 32 [0x65, 0x7A, 0xCD, 0x64]) = true := by
  decide +kernel

/-- CV3: the bounds of PULL_FIELD. -/
theorem test_pullField_bounds :
    next (exec (.pullField 255 255) State.reset) (fun t => t.err = .invalidParameter) ∧
      next (exec (.pullField 0 0) { State.reset with field := fill 32 [1] }) (fun t => t.field = zeros 32) := by
  decide +kernel

/-- IV5: the selector's results. -/
theorem test_selectInst_iv5 :
    next (exec (.selectInst 2) ts1) (fun t => t.inst = 0x88) ∧
      next (exec (.selectInst 3) { ts1 with reslength := 256, cklength := 256 }) (fun t => t.inst = 0x64) ∧
      next (exec (.selectInst 4) ts1Wide) (fun t => t.inst = 0xC1) := by
  decide +kernel

/-- IV5: its errors. -/
theorem test_selectInst_errors :
    next (exec (.selectInst 1) { ts1 with maclength := 96 }) (fun t => t.err = .invalidParameter) ∧
      next (exec (.selectInst 0) { ts1 with klength := 256 }) (fun t => t.err = .invalidParameter) ∧
      next (exec (.selectInst 5) ts1) (fun t => t.err = .illegalCommand) := by
  decide +kernel

/-- R241: TS1's registers open an UNINITIALIZED session, and with TOPc supplied a READY one. -/
theorem test_sessionInit_opens : exec .sessionInit ts1 = .next { ts1 with sess := .uninitialized } ∧
    exec .sessionInit { ts1 with topcIn := ts1TopcIn } = .next ts1Ready := ⟨rfl, rfl⟩

/-- R241, R304: a second SESSION_INIT, and one with neither TOP nor TOPc. -/
theorem test_sessionInit_errors : exec .sessionInit ts1Ready = .next { ts1Ready with err := .sequence } ∧
    exec .sessionInit { ts1 with top := FieldReg.zero 32 } =
      .next { ts1 with top := FieldReg.zero 32, err := .missingInput } := ⟨rfl, rfl⟩

/-- R242: the session ends and the cache is cleared. -/
theorem test_sessionClose :
    exec .sessionClose ts1Ready = .next { ts1Ready with sess := .none, topcCache := zeros 32 } := rfl

/-- DT1, index 0: the assembled state of the TOPc derivation, bytes 30 to 65. -/
theorem test_topcBlock_dt1 : pullField (topcBlock 128 ts1) 30 36 =
    [0xAB, 0xAB] ++ List.replicate 24 0x00 ++ algoBytes ++ [0x00, 0x55, 0x55] := by decide +kernel

/-- R245: a TOP length other than 32. -/
theorem test_computeTopc_length : next (exec .computeTopc { ts1 with top := ⟨zeros 32, 31⟩ })
    (fun t => t.err = .invalidParameter ∧ t.topcOut.len = 0) = true := by decide +kernel

/-- DT2, index 0: the assembled state of F1, bytes 30 to 65, last first. -/
theorem test_f1Block_dt2 : pullField (macBlock 0x08 ts1Ready) 30 36 =
    [0xAB, 0xAB] ++ List.replicate 6 0x11 ++ [0xFF, 0xFF] ++ List.replicate 16 0x42 ++ algoBytes ++
      [0x08, 0xBD, 0x04] := by decide +kernel

/-- R246: no session; a MAC length that is not legal. -/
theorem test_f1_errors : next (exec .f1 ts1) (fun t => t.err = .sequence) ∧
    next (exec .f1 { ts1Open with maclength := 96 }) (fun t => t.err = .invalidParameter ∧ t.sess = .uninitialized) := by
  decide +kernel

/-- IV2: F1STAR's byte, for both key lengths. -/
theorem test_f1star_iv2 : instByte .f1star 128 ts1 = .ok 0x88 ∧ instByte .f1star 256 ts1Wide = .ok 0xA1 := ⟨rfl, rfl⟩

/-- R246: F1STAR checks SQN, which F5STAR does not. -/
theorem test_f1star_sqn : next (exec .f1star { ts1Open with sqn := ⟨zeros 6, 5⟩ })
    (fun t => t.err = .invalidParameter ∧ t.macs.len = 0) = true := by decide +kernel

/-- R185, R186, R250, without an iteration (ITER = 0, which no session has): RES, CK, IK and AK are the assembled
state's own bytes at offsets 0, 32, 64 and 96 (DT4, index 0), last first. -/
theorem test_f2345_offsets : next (exec .f2345 { ts1Ready with iter := 0 }) (fun t =>
    t.res = reg 32 [0x40, 0xCC, 0xCB, 0xFF] ∧
      t.ck = reg 32 (List.replicate 8 0x42 ++ algoBytes ++ [0x40]) ∧
      t.ik = reg 32 (List.replicate 16 0xAB) ∧ t.ak = reg 6 [0, 0, 0, 0, 0, 0x1F]) = true := by
  decide +kernel

/-- R217: a RES length that is not legal. -/
theorem test_f2345_length : next (exec .f2345 { ts1Open with reslength := 16 })
    (fun t => t.err = .invalidParameter ∧ t.sess = .uninitialized) = true := by decide +kernel

/-- DT5, index 0: the assembled state of F5STAR, bytes 30 to 65, last first: AMF and SQN absent. -/
theorem test_f5starBlock_dt5 : pullField (randBlock 0xC0 ts1Ready) 30 36 =
    [0xAB, 0xAB] ++ List.replicate 8 0x00 ++ List.replicate 16 0x42 ++ algoBytes ++ [0xC0, 0xBD, 0x04] := by
  decide +kernel

/-- R246, R251: RAND of a wrong length. -/
theorem test_f5star_rand : next (exec .f5star { ts1Open with rand := ⟨zeros 16, 15⟩ })
    (fun t => t.err = .invalidParameter ∧ t.aks.len = 0 ∧ t.sess = .uninitialized) = true := by decide +kernel

/-- R252: NOP clears the result of the command before it. -/
theorem test_nop : exec .nop { State.reset with err := .sequence } = .next State.reset := rfl

/-! ## The host port -/

/-- The word placed at the port is the next step's command, from reset: PERMUTE 0 raises INVALID_LENGTH. -/
theorem test_step_withFetchWord :
    step (State.reset.withFetchWord 24 0x000002) = .next { State.reset with cmdOp := 2, err := .invalidLength } := rfl

/-- R93, R115: a CMD_OP write of an unassigned opcode. -/
theorem test_step_illegal : step { State.reset with port := [.write 0x1E4 0x06] } =
    .next { State.reset with cmdOp := 6, err := .illegalCommand } := rfl

/-- R340: what the host reads after reset at the first and last register, at ITER, and at SESS to CTRL. -/
theorem test_reset_bytes : [0x000, 0x192, 0x1E0, 0x1E1, 0x1E2, 0x1E3, 0x2D7].map State.reset.readByte =
    [0, 1, 0, 0, 0, 0, 0] := by decide +kernel

/-- R86: KLENGTH = 256 written as 00 then 01. -/
theorem test_write_klength : ((State.reset.writeByte 0x188 0).writeByte 0x189 1).klength = 256 := by decide +kernel

/-- R46: only bit 0 of CTRL is kept. -/
theorem test_write_ctrl : (State.reset.writeByte 0x1E3 0xFF).readByte 0x1E3 = 0x01 := by decide +kernel

/-! ## Witnesses: a state and operands that meet the hypotheses of each statement, clause by clause -/

/-- A state with one transaction at the port. -/
def at1 (s : State) (r : HostReq) : State := { s with port := [r] }

theorem test_witness_DecodeOfEncodeIsIdentity : (Instr.selectInst 4).wellFormed = true := by decide

theorem test_witness_EncodeOfDecodeIsIdentity : decode 0xFFFF03 = .ok (.pushField 255 255) := by decide

/-- Illegal words at the edges of R115's classes, and legal words beside them. -/
theorem test_witness_IllegalWordsRaiseAndOthersExecute :
    ([(0x06, 0, 0), (0x0F, 0, 0), (0x17, 0, 0), (0xFF, 0, 0), (0x00, 1, 0), (0x16, 0, 1), (0x02, 200, 1), (0x05, 0, 1),
      (0x05, 5, 0)].all fun w => decide (illegalWord w.1 w.2.1 w.2.2)) = true ∧
    ([(0x00, 0, 0), (0x02, 255, 0), (0x03, 255, 255), (0x04, 0, 255), (0x05, 4, 0), (0x10, 0, 0), (0x16, 0, 0)].all
      fun w => decide (¬ illegalWord w.1 w.2.1 w.2.2)) = true := by decide

theorem test_witness_StepRunsDecodedCommand :
    (at1 State.reset (.write 0x1E4 0x05)).port = .write 0x1E4 0x05 :: [] ∧ State.reset.sess ≠ .topcResolved ∧
      decode (cmdWord 0x05 State.reset.cmdA0 State.reset.cmdA1) = .ok (.selectInst 0) ∧
      decodeTableWord 24 0xFFFF04 = some (.pullField 255 255) := by decide

theorem test_witness_CmdSequenceIssuesItsWord : State.reset.sess ≠ .topcResolved := by decide

theorem test_witness_ReadReturnsByteAndChangesNothing :
    (at1 ts1Ready (.read 0x3FF)).port = [.read 0x3FF] ∧ (at1 ts1Ready (.read 0x3FF)).sess ≠ .topcResolved := by decide

/-- The edges of the plain RW registers, CTRL, and the edges of the RW-L registers with no session. -/
theorem test_witness_HostWriteSetsItsByteAlone :
    ([0x000, 0x0C7, 0x1A0, 0x1BF, 0x1E5, 0x1E6].all fun a => decide (plainAddr a)) = true ∧ (0x1E3#10).toNat = 0x1E3 ∧
      ([0x100, 0x177, 0x180, 0x185, 0x188, 0x192].all fun a => decide (lockedAddr a)) = true ∧
      (at1 State.reset (.write 0x192 2)).port = [.write 0x192 2] ∧ State.reset.sess = .none := by decide

theorem test_witness_SessionLocksInputRegisters :
    (at1 ts1Open (.write 0x100 1)).port = [.write 0x100 1] ∧ ts1Open.sess = .uninitialized ∧ lockedAddr 0x100 ∧
      (at1 ts1Ready (.write 0x192 1)).port = [.write 0x192 1] ∧ ts1Ready.sess = .ready ∧ lockedAddr 0x192 := by decide

/-- The edges of the RO registers and of the reserved addresses, and CTRL. -/
theorem test_witness_ReadOnlyAndReservedAreInert :
    ([0x1C0, 0x1E2, 0x200, 0x2C5, 0x2C8, 0x2CD, 0x2D0, 0x2D7].all fun a => decide (readOnlyAddr a)) = true ∧
      ([0x0C8, 0x0FF, 0x178, 0x186, 0x193, 0x1E7, 0x1FF, 0x2C6, 0x2CE, 0x2D8, 0x3FF].all fun a =>
        decide (reservedAddr a)) = true ∧
      (at1 State.reset (.write 0x1E3 0xFF)).port = [.write 0x1E3 0xFF] ∧ State.reset.sess ≠ .topcResolved := by decide

theorem test_witness_OptionRegistersAreLittleEndian : State.reset.sess = .none := by decide

theorem test_witness_ResetLeavesResetValues :
    (at1 ts1Ready .reset).port = [.reset] ∧ ts1Ready.sess ≠ .topcResolved := by decide

theorem test_witness_ResetDuringCommandLeavesResetValues :
    (at1 ts1Ready (.interruptedCommand 0x13)).port = [.interruptedCommand 0x13] ∧ ts1Ready.sess ≠ .topcResolved := by
  decide

theorem test_witness_BlockWaitsForTheHost : ts1Ready.port = [] := by decide

theorem test_witness_lane_bounds : (0 < 25 ∧ 24 < 25) ∧ (0 < 64 ∧ 63 < 64) ∧ (4 < 5 ∧ 0 < 5) := by decide

/-- The arrays before each round, from a buffer. -/
def trace (b : Buf) : Nat → Lanes
  | 0 => loadLanes b
  | n + 1 => if h : n < 24 then iota roundConstants[n] (chi (piStep (rho (theta (trace b n))))) else trace b n

theorem test_witness_PermuteIsTwentyFourRounds (b : Buf) : trace b 0 = loadLanes b ∧
    ∀ ir : Fin 24, trace b (ir.val + 1) = iota roundConstants[ir] (chi (piStep (rho (theta (trace b ir.val))))) :=
  ⟨rfl, fun ir => dif_pos ir.isLt⟩

theorem test_witness_PermuteCommandMeaning :
    (200#8).toNat = 200 ∧ (199#8).toNat ≠ 200 ∧ (201#8).toNat ≠ 200 ∧ (0#8).toNat ≠ 200 := by decide

/-- A field of 32 bytes at the last offset that fits, and an empty one at the end of the buffer. -/
theorem test_witness_field_bounds : 168 + (List.replicate 32 (0x5A : Byte)).length ≤ 200 ∧
    200 + ([] : Bytes).length ≤ 200 ∧ (List.replicate 32 (0x5A : Byte)).length ≤ 32 := by decide

theorem test_witness_AssembledStateLayout :
    ts1Topc.length = 32 ∧ (∀ d ∈ some ts1.randValue, d.length = 16) ∧ (∀ d ∈ (none : Option Bytes), d.length = 2) ∧
      (∀ d ∈ some ts1.sqnValue, d.length = 6) ∧ ts1.keyValue.length = 16 ∧ ts1Wide.keyValue.length = 32 := by
  decide +kernel

/-- The last operands of PUSH_FIELD and PULL_FIELD that fit, and the first that do not (CV3). -/
theorem test_witness_field_commands :
    ([(168, 32), (199, 1), (200, 0), (0, 32)].all fun p : Byte × Byte =>
      decide (p.2.toNat ≤ 32 ∧ p.1.toNat + p.2.toNat ≤ 200)) = true ∧
    ([(169, 32), (201, 0), (0, 33), (255, 255)].all fun p : Byte × Byte =>
      decide (¬ (p.2.toNat ≤ 32 ∧ p.1.toNat + p.2.toNat ≤ 200))) = true := by decide

/-- Legal and illegal lengths for each family that has them, with both key lengths. -/
theorem test_witness_InstByteLayouts :
    ts1.lengthsOk .f1 ∧ ts1Wide.lengthsOk .f1star ∧ ts1.lengthsOk .f2345 ∧ ts1Wide.lengthsOk .f2345 ∧
      ts1.lengthsOk .topc ∧ ts1.lengthsOk .f5star ∧ ¬ State.reset.lengthsOk .f1 ∧ ¬ State.reset.lengthsOk .f1star ∧
      ¬ State.reset.lengthsOk .f2345 := by
  simp only [State.lengthsOk]
  decide

theorem test_witness_InstanceCommandMeaning :
    (let sels : List (Byte × Family) := [(0, .topc), (1, .f1), (2, .f1star), (3, .f2345), (4, .f5star)]
     (0, .topc) ∈ sels ∧ (4, .f5star) ∈ sels) ∧
      (ts1.keyOk ∧ ts1.lengthsOk .f1star) ∧ (ts1Wide.keyOk ∧ ts1Wide.lengthsOk .f2345) ∧
      ¬ (State.reset.keyOk ∧ State.reset.lengthsOk .topc) ∧ 4 < (5#8).toNat := by
  simp only [State.lengthsOk]
  decide

theorem test_witness_DistinctProfilesHaveDistinctBytes :
    instByte .f2345 256 ts1Wide = .ok 0x67 ∧ instByte .f2345 256 { ts1Wide with iter := 9 } = .ok 0x67 := ⟨rfl, rfl⟩

theorem test_witness_SessionInitOpensSession :
    let s : State := { ts1 with topcIn := ts1TopcIn }
    (s.sess = .none ∧ s.inputsOk ∧ s.topcIn.len.toNat = 32) ∧
      (ts1.sess = .none ∧ ts1.inputsOk ∧ ts1.topcIn.len.toNat = 0 ∧ ts1.top.len.toNat = 32) := by decide

/-- One state for each error of SESSION_INIT, and for each reason of the last. -/
theorem test_witness_SessionInitFirstFailingCheck :
    ts1Open.sess ≠ .none ∧
      (State.reset.sess = .none ∧ ¬ State.reset.keyOk) ∧
      (let s : State := { ts1 with top := FieldReg.zero 32 }
       s.sess = .none ∧ s.keyOk ∧ s.top.len.toNat = 0 ∧ s.topcIn.len.toNat = 0) ∧
      ([⟨zeros 32, 31⟩, ⟨zeros 32, 33⟩].all fun f : FieldReg 32 =>
        let s : State := { ts1 with topcIn := f }
        let u : State := { ts1 with top := f }
        decide (s.sess = .none ∧ s.keyOk ∧ ¬ (s.top.len.toNat = 0 ∧ s.topcIn.len.toNat = 0) ∧
          s.topcIn.len.toNat ≠ 0 ∧ s.topcIn.len.toNat ≠ 32 ∧ u.topcIn.len.toNat = 0 ∧ u.top.len.toNat ≠ 32)) = true ∧
      ({ ts1 with rand := ⟨zeros 16, 15⟩ : State }.rand.len.toNat ≠ 16) ∧
      ({ ts1 with sqn := ⟨zeros 6, 7⟩ : State }.sqn.len.toNat ≠ 6) ∧
      ({ ts1 with amf := ⟨zeros 2, 1⟩ : State }.amf.len.toNat ≠ 2) ∧
      ({ ts1 with iter := 0 : State }.iter.toNat = 0) := by decide

theorem test_witness_ComputeTopcMeaning : (ts1.keyOk ∧ ts1.top.len.toNat = 32 ∧ ts1.iter.toNat ≠ 0) ∧
    ¬ (State.reset.keyOk ∧ State.reset.top.len.toNat = 32 ∧ State.reset.iter.toNat ≠ 0) := by decide

/-- The F-commands on a READY session, with the shortest and the longest lengths. -/
theorem test_witness_F_commands : (ts1Ready.sess = .ready ∧ ts1Ready.inputsOk ∧ ts1Ready.macOk ∧ ts1Ready.keysOk) ∧
    (let s : State := { ts1Wide with sess := .ready, iter := 255 }
     s.sess = .ready ∧ s.inputsOk ∧ s.macOk ∧ s.keysOk) := by decide

theorem test_witness_FirstFCommandDerivesTopc : Family.command .f2345 = some .f2345 ∧ Family.command .f5star = some .f5star ∧
    ts1Open.sess = .uninitialized ∧ ts1Open.inputsOk ∧ ts1Open.lengthsOk .f2345 ∧ ts1Open.lengthsOk .f5star := by
  simp only [State.lengthsOk]
  decide

/-- One state for each reason of the F-commands' errors. -/
theorem test_witness_FCommandFirstFailingCheck :
    ts1.sess = .none ∧ Family.command .f1 = some .f1 ∧ ts1Open.sess ≠ .none ∧
      (¬ { ts1Open with klength := 256 : State }.keyOk) ∧ (¬ { ts1Open with maclength := 96 : State }.lengthsOk .f1) ∧
      ({ ts1Open with rand := ⟨zeros 16, 17⟩ : State }.rand.len.toNat ≠ 16) ∧
      ({ ts1Open with sqn := ⟨zeros 6, 5⟩ : State }.sqn.len.toNat ≠ 6) ∧
      ({ ts1Open with amf := ⟨zeros 2, 3⟩ : State }.amf.len.toNat ≠ 2) := by
  simp only [State.lengthsOk]
  decide

theorem test_witness_FailingCommandChangesErrAlone :
    exec .f1 ts1 = .next { ts1 with err := .sequence } ∧ { ts1 with err := Err.sequence : State }.err ≠ .ok :=
  ⟨rfl, by decide⟩

/-- An address that PUSH_FIELD may not write, beside its range. -/
theorem test_witness_CommandFrame : (∃ t, exec (.pushField 168 32) ts1 = .next t) ∧
    mayWrite (.pushField 168 32) 167 = false ∧ mayWrite (.pushField 168 32) 200 = false ∧
    mayWrite .f1 0x240 = false ∧ mayWrite .nop 0x1E0 = false := ⟨⟨_, rfl⟩, by decide⟩

theorem test_witness_SessionTransitions :
    (∃ t, exec .sessionInit ts1 = .next t ∧ t.err = .ok) ∧ (∃ t, exec .f1 ts1 = .next t ∧ t.err ≠ .ok) :=
  ⟨⟨_, rfl, rfl⟩, ⟨_, rfl, by decide⟩⟩

theorem test_witness_DebugEventsOfEachCommand : ∃ t, exec .nop ts1 = .next t := ⟨_, rfl⟩

/-- A READY session between transactions meets the invariant, and a step from it answers. -/
theorem test_witness_InvKeptByEveryStep : ts1Ready.Inv ∧ step ts1Ready = .next ts1Ready :=
  ⟨⟨⟨fun h => by rcases h with h | h <;> exact absurd h (by decide), by decide, fun _ => by decide,
    fun h => absurd h (by decide), fun _ => rfl⟩, by decide +kernel⟩, rfl⟩

/-- K bytes that differ only past K_LEN. -/
theorem test_witness_BytesPastKeyLengthAreUnread :
    let kb : Vector Byte 32 := fill 32 (List.replicate 32 0xAB)
    kb ≠ ts1.k.bytes ∧ firstBytes kb ts1.k.len.toNat = firstBytes ts1.k.bytes ts1.k.len.toNat := by decide +kernel

theorem test_witness_TopcReuseGivesSameOutputs : Family.command .f1 = some .f1 ∧ ts1.sess = .none ∧ ts1.inputsOk ∧
    ts1.topcIn.len.toNat = 0 ∧ ts1.top.len.toNat = 32 ∧ ts1.lengthsOk .f1 := by
  simp only [State.lengthsOk]
  decide

theorem test_witness_F1AndF1StarDifferInTheStarBit :
    instByte .f1 128 ts1Ready = .ok 0x08 ∧ instByte .f1star 128 ts1Ready = .ok 0x88 := ⟨rfl, rfl⟩

end Sys2Proof.Tests
end

section
/-! PROOFS. The host port: what a read finds at each address, what a write stores, and the command a CMD_OP write
issues. -/

namespace Sys2Proof.Machine

/-! ## The bytes of each register (R92) -/

/-- The number of bytes of a register. -/
def regSize : Reg → Nat
  | .STATE => 200
  | .K | .TOP | .TOPC_IN | .FIELD | .TOPC_CACHE | .TOPC_OUT | .MACA | .MACS | .RES | .CK | .IK => 32
  | .RAND => 16
  | .SQN | .AK | .AKS => 6
  | .AMF | .KLENGTH | .MACLENGTH | .RESLENGTH | .CKLENGTH | .IKLENGTH => 2
  | _ => 1

theorem bytes_eq_regSize : ∀ row ∈ regMap, row.bytes = regSize row.reg := by decide

/-- The registers a host write sets, CTRL apart, which keeps one bit. -/
def hostWritten : Reg → Bool
  | .STATE | .K | .TOP | .TOPC_IN | .RAND | .SQN | .AMF | .K_LEN | .TOP_LEN | .TOPC_LEN | .RAND_LEN | .SQN_LEN
  | .AMF_LEN | .KLENGTH | .MACLENGTH | .RESLENGTH | .CKLENGTH | .IKLENGTH | .ITER | .FIELD | .CMD_OP | .CMD_A0
  | .CMD_A1 => true
  | _ => false

/-- A byte written to a register is what the register then holds there (R83). -/
theorem regByte_setRegByte_self (s : State) {r : Reg} (hr : hostWritten r = true) {i : Nat} (hi : i < regSize r)
    (d : Byte) : (s.setRegByte r i d).regByte r i = d := by
  cases r with
  | STATE | K | TOP | TOPC_IN | RAND | SQN | AMF | FIELD => exact byteAt_set_self _ d hi
  | KLENGTH | MACLENGTH | RESLENGTH | CKLENGTH | IKLENGTH => exact halfByte_set_self _ i d
  | K_LEN | TOP_LEN | TOPC_LEN | RAND_LEN | SQN_LEN | AMF_LEN | ITER | CMD_OP | CMD_A0 | CMD_A1 => rfl
  | _ => cases hr

/-- CTRL keeps bit 0 of a byte written to it (R46). -/
theorem regByte_setRegByte_ctrl (s : State) (i : Nat) (d : Byte) :
    (s.setRegByte .CTRL i d).regByte .CTRL i = d &&& 1 := by
  have hbit : ∀ d : Byte, ctrlByte (d.getLsbD 0) = d &&& 1 := by decide
  exact hbit d

/-- A write to one byte of a register leaves its other bytes as they were (R83). -/
theorem regByte_setRegByte_ne (s : State) {r : Reg} {i j : Nat} (hi : i < regSize r) (hj : j < regSize r) (hij : i ≠ j)
    (d : Byte) : (s.setRegByte r i d).regByte r j = s.regByte r j := by
  cases r with
  | STATE | K | TOP | TOPC_IN | RAND | SQN | AMF | FIELD => exact byteAt_set_other _ d hij
  | KLENGTH | MACLENGTH | RESLENGTH | CKLENGTH | IKLENGTH => exact halfByte_set_other _ hi hj hij d
  | K_LEN | TOP_LEN | TOPC_LEN | RAND_LEN | SQN_LEN | AMF_LEN | ITER | CTRL | CMD_OP | CMD_A0 | CMD_A1 =>
    simp only [regSize] at hi hj
    omega
  | _ => rfl

/-- A write that takes effect at one address leaves the byte at every other address as it was (R83). -/
theorem readByte_setRegByte_ne {a b : Addr} {row : RegRow} (hrow : rowAt a.toNat = some row) (hne : b ≠ a) (s : State)
    (d : Byte) : (s.setRegByte row.reg (a.toNat - row.base) d).readByte b = s.readByte b := by
  cases hrow' : rowAt b.toNat with
  | none => rw [readByte_reserved hrow', readByte_reserved hrow']
  | some row' =>
    rw [readByte_row hrow', readByte_row hrow']
    obtain ⟨hmem, hlo, hhi⟩ := rowAt_mem hrow
    obtain ⟨hmem', hlo', hhi'⟩ := rowAt_mem hrow'
    by_cases hreg : row.reg = row'.reg
    · obtain rfl := regMap_reg_inj row hmem row' hmem' hreg
      have hnat : b.toNat ≠ a.toNat := fun h => hne (BitVec.eq_of_toNat_eq h)
      rw [bytes_eq_regSize row hmem] at hhi hhi'
      exact regByte_setRegByte_ne s (by omega) (by omega) (by omega) d
    · exact regByte_setRegByte_other s hreg _ _ d

/-! ## The class of the register at each address (R34, R92) -/

theorem rowAt_of_plain {a : Addr} (h : plainAddr a.toNat) : ∃ row, rowAt a.toNat = some row ∧ row.access = .rw ∧
    hostWritten row.reg = true := by
  obtain ⟨row, hrow, hrw, hreg⟩ := rowAt_plain ⟨a.toNat, a.isLt⟩ h
  have hwritten : ∀ r ∈ [Reg.STATE, .FIELD, .CMD_A0, .CMD_A1], hostWritten r = true := by decide
  exact ⟨row, hrow, hrw, hwritten _ hreg⟩

theorem rowAt_of_locked {a : Addr} (h : lockedAddr a.toNat) : ∃ row, rowAt a.toNat = some row ∧ row.access = .rwL ∧
    hostWritten row.reg = true := by
  obtain ⟨row, hrow, hrw, hreg⟩ := rowAt_locked ⟨a.toNat, a.isLt⟩ h
  have hwritten : ∀ r ∈ inputRows.tail.map (·.reg), hostWritten r = true := by decide
  exact ⟨row, hrow, hrw, hwritten _ hreg⟩

theorem rowAt_ctrl : rowAt 0x1E3 = some ⟨0x1E3, .CTRL, 1, .rw⟩ := by decide

theorem rowAt_cmdOp : rowAt cmdOpAddr.toNat = some ⟨0x1E4, .CMD_OP, 1, .rwT⟩ := by decide

/-- A write at the port to an address other than CMD_OP's stores its byte (R83, R93). -/
theorem step_write {s : State} {a : Addr} {d : Byte} {rest : List HostReq} (hp : s.port = .write a d :: rest)
    (hs : s.sess ≠ .topcResolved) (ha : a.toNat ≠ 0x1E4) :
    step s = .next (State.writeByte { s with port := rest } a d) := by
  rw [step_transact hp hs, transact_write fun h => ha (by rw [h]; rfl)]

/-- A write that takes effect changes only its byte of the register space, at an address of a row (R83). -/
theorem step_write_sets_byte {s : State} {a : Addr} {d v : Byte} {rest : List HostReq} {row : RegRow}
    (hp : s.port = .write a d :: rest) (hs : s.sess ≠ .topcResolved) (ha : a.toNat ≠ 0x1E4)
    (hrow : rowAt a.toNat = some row) (hw : writable row.access s.sess = true)
    (hv : ∀ s : State, (s.setRegByte row.reg (a.toNat - row.base) d).regByte row.reg (a.toNat - row.base) = v) :
    ∃ t : State, step s = .next t ∧ t.readByte a = v ∧ (∀ b : Addr, b ≠ a → t.readByte b = s.readByte b) ∧
      t.port = rest ∧ t.dbg = s.dbg ∧ t.readData = s.readData := by
  refine ⟨_, step_write hp hs ha, ?_⟩
  rw [writeByte_row_on (s := { s with port := rest }) hrow hw]
  obtain ⟨-, -, -, -, -, -, -, -, -, -, -, -, hdbg, hport, hdata⟩ :=
    setRegByte_keeps { s with port := rest } row.reg (a.toNat - row.base) d
  refine ⟨?_, fun b hb => readByte_setRegByte_ne hrow hb _ d, hport, hdbg, hdata⟩
  rw [readByte_row hrow, hv]

/-- Settles O8, by the class of the register at the address. -/
theorem hostWriteSetsItsByteAlone : Obligations.HostWriteSetsItsByteAlone := by
  unfold Obligations.HostWriteSetsItsByteAlone
  intro s a d rest hp hs ha
  have hself {row : RegRow} (hrow : rowAt a.toNat = some row) (hreg : hostWritten row.reg = true) (s : State) :
      (s.setRegByte row.reg (a.toNat - row.base) d).regByte row.reg (a.toNat - row.base) = d := by
    obtain ⟨hmem, hlo, hhi⟩ := rowAt_mem hrow
    rw [bytes_eq_regSize row hmem] at hhi
    exact regByte_setRegByte_self s hreg (by omega) d
  rcases ha with hplain | hctrl | ⟨hlocked, hnone⟩
  · obtain ⟨row, hrow, hrw, hreg⟩ := rowAt_of_plain hplain
    rw [if_neg (by omega)]
    exact step_write_sets_byte hp hs (by omega) hrow (by rw [hrw]; rfl) (hself hrow hreg)
  · rw [if_pos hctrl]
    have hrow : rowAt a.toNat = some ⟨0x1E3, .CTRL, 1, .rw⟩ := by rw [hctrl, rowAt_ctrl]
    exact step_write_sets_byte hp hs (by omega) hrow rfl fun s => regByte_setRegByte_ctrl s _ d
  · obtain ⟨row, hrow, hrw, hreg⟩ := rowAt_of_locked hlocked
    rw [if_neg (by omega)]
    exact step_write_sets_byte hp hs (by omega) hrow (by rw [hrw, hnone]; rfl) (hself hrow hreg)

/-- Settles O9: the class RW-L is not writable in a session. -/
theorem sessionLocksInputRegisters : Obligations.SessionLocksInputRegisters := by
  unfold Obligations.SessionLocksInputRegisters
  intro s a d rest hp hsess hlocked
  obtain ⟨row, hrow, hclass, -⟩ := rowAt_of_locked hlocked
  have hw : writable row.access s.sess = false := by rcases hsess with h | h <;> rw [hclass, h] <;> rfl
  rw [step_write hp (by rcases hsess with h | h <;> simp [h]) (by omega),
    writeByte_row_off (s := { s with port := rest }) hrow hw]

/-- A write to an RO register or a reserved address stores nothing (R50). -/
theorem writeByte_inert {a : Addr} (h : readOnlyAddr a.toNat ∨ reservedAddr a.toNat) (s : State) (d : Byte) :
    s.writeByte a d = s := by
  rcases h with h | h
  · obtain ⟨row, hrow, hro⟩ := rowAt_readOnly ⟨a.toNat, a.isLt⟩ h
    exact writeByte_row_off hrow (by rw [hro]; rfl) d
  · exact writeByte_reserved (rowAt_reserved ⟨a.toNat, a.isLt⟩ h) s d

/-- The reserved bits of SESS, ERR and CTRL read as 0 (R43, R44, R46). -/
theorem reserved_bits_zero (c : Sess) (e : Err) (en : Bool) :
    c.code &&& 0xFC = 0 ∧ e.code &&& 0xF8 = 0 ∧ ctrlByte en &&& 0xFE = 0 := by
  cases c <;> cases e <;> cases en <;> decide

/-- Settles O10. -/
theorem readOnlyAndReservedAreInert : Obligations.ReadOnlyAndReservedAreInert := by
  unfold Obligations.ReadOnlyAndReservedAreInert
  refine ⟨fun s a d rest hp hs ha => ?_, fun s d rest hp hs => ?_, fun s a ha => ?_, fun s => ?_⟩
  · rw [step_write hp hs (by omega), writeByte_inert ha]
  · rw [step_write hp hs (by decide)]
    rfl
  · exact readByte_reserved (rowAt_reserved ⟨a.toNat, a.isLt⟩ ha) s
  · exact reserved_bits_zero s.sess s.err s.dbgEn

/-! ## Reset and the idle step (R340, R341) -/

theorem byteAt_zeros (n i : Nat) : byteAt (zeros n) i = 0 := by
  by_cases h : i < n
  · rw [byteAt_of_lt _ h, getElem_zeros]
  · simp [byteAt, h]

/-- Every register byte is 0x00 at reset but ITER's. -/
theorem regByte_reset (r : Reg) (i : Nat) : State.reset.regByte r i = if r = .ITER then 1 else 0 := by
  cases r with
  | KLENGTH | MACLENGTH | RESLENGTH | CKLENGTH | IKLENGTH =>
    simp [State.regByte, State.reset, halfByte]
  | _ => simp [State.regByte, State.reset, FieldReg.zero, byteAt_zeros, Sess.code, Err.code, ctrlByte]

theorem rowAt_iter : rowAt 0x192 = some ⟨0x192, .ITER, 1, .rwL⟩ := by decide

/-- ITER's one byte stands at 0x192 (R92). -/
theorem reg_eq_iter {a : Nat} {row : RegRow} (hrow : rowAt a = some row) : row.reg = .ITER ↔ a = 0x192 := by
  obtain ⟨hmem, hlo, hhi⟩ := rowAt_mem hrow
  have hiter : ∀ row ∈ regMap, row.reg = .ITER → row.base = 0x192 ∧ row.bytes = 1 := by decide
  constructor
  · intro hreg
    obtain ⟨hbase, hbytes⟩ := hiter row hmem hreg
    omega
  · rintro rfl
    rw [rowAt_iter] at hrow
    cases hrow
    rfl

theorem readByte_reset (a : Addr) : State.reset.readByte a = if a.toNat = 0x192 then 1 else 0 := by
  cases hrow : rowAt a.toNat with
  | none =>
    have hne : a.toNat ≠ 0x192 := fun h => by simp [h, rowAt_iter] at hrow
    rw [readByte_reserved hrow, if_neg hne]
  | some row =>
    rw [readByte_row hrow, regByte_reset]
    simp only [reg_eq_iter hrow]

/-- Settles O13. -/
theorem resetLeavesResetValues : Obligations.ResetLeavesResetValues := by
  unfold Obligations.ResetLeavesResetValues
  intro s rest hp hs
  exact ⟨{ State.reset with port := rest, readData := s.readData }, step_transact hp hs, readByte_reset, rfl, rfl, rfl,
    rfl, rfl⟩

/-- Settles O15. -/
theorem blockWaitsForTheHost : Obligations.BlockWaitsForTheHost := by
  unfold Obligations.BlockWaitsForTheHost
  exact fun s hp => step_idle hp

/-! ## Commands at the port (R110, R120) -/

/-- A CMD_OP write stores its byte, and then the engine takes its turn (R47, R93). -/
theorem step_write_cmdOp {s : State} {d : Byte} {rest : List HostReq} (hp : s.port = .write cmdOpAddr d :: rest)
    (hs : s.sess ≠ .topcResolved) : step s = issue { s with port := rest, cmdOp := d } := by
  rw [step_transact hp hs, transact, if_pos rfl, writeByte_cmdOp]

/-- Settles O5. -/
theorem stepRunsDecodedCommand : Obligations.StepRunsDecodedCommand := by
  unfold Obligations.StepRunsDecodedCommand
  refine ⟨fun s d rest i hp hs hd => ?_, fun s nbits w i hs hd => ?_⟩
  · rw [step_write_cmdOp hp hs]
    exact issue_ok (s := { s with port := rest, cmdOp := d }) hd
  · have hword : decode (tableWord nbits w) = .ok i := by
      simp only [decodeTableWord] at hd
      split at hd <;> cases hd
      assumption
    rw [← cmdWord_fields (tableWord nbits w)] at hword
    have hstep := step_write_cmdOp (s := s.withCommand (tableWord nbits w)) rfl hs
    exact hstep.trans (issue_ok hword)

/-- Settles O6: two argument writes, then the CMD_OP write. -/
theorem cmdSequenceIssuesItsWord : Obligations.CmdSequenceIssuesItsWord := by
  unfold Obligations.CmdSequenceIssuesItsWord
  intro s w rest hs
  let s0 : State := { s with port := cmdRequests w ++ rest }
  let s1 : State := { s with port := (cmdRequests w).drop 1 ++ rest, cmdA0 := a0Field w }
  let s2 : State := { s1 with port := (cmdRequests w).drop 2 ++ rest, cmdA1 := a1Field w }
  have h0 : step s0 = .next s1 := step_write (s := s0) (a := 0x1E5) rfl hs (by decide)
  have h1 : step s1 = .next s2 := step_write (s := s1) (a := 0x1E6) rfl hs (by decide)
  exact ⟨s1, s2, h0, h1, step_write_cmdOp (s := s2) rfl hs⟩

/-! ## What the host reads where (R92) -/

/-- A register of several bytes, kept as the vector `v`, is read byte by byte from its row's base address. -/
theorem readByte_vector {n : Nat} {row : RegRow} (hrow : row ∈ regMap) (hn : row.bytes = n) (s : State)
    {v : Vector Byte n} (hv : ∀ i, s.regByte row.reg i = byteAt v i) (i : Fin n) :
    s.readByte (regAddr row.base i) = v[i] := by
  have hsmall : ∀ row ∈ regMap, row.bytes ≤ 200 := by decide
  have hi : i.val < row.bytes := hn ▸ i.isLt
  rw [readByte_regAddr hrow hi (hi.trans_le (hsmall row hrow)), hv, byteAt_of_lt v i.isLt]
  rfl

/-- Settles O59, a row of the map a register. -/
theorem fieldRegistersReadAtTheirAddresses : Obligations.FieldRegistersReadAtTheirAddresses := by
  unfold Obligations.FieldRegistersReadAtTheirAddresses
  intro s
  have read {n base : Nat} {reg : Reg} {c : Access} (hrow : ⟨base, reg, n, c⟩ ∈ regMap) {v : Vector Byte n}
      (hv : ∀ i, s.regByte reg i = byteAt v i) (i : Fin n) : s.readByte (regAddr base i) = v[i] :=
    readByte_vector hrow rfl s hv i
  refine ⟨?_, fun i => ⟨?_, ?_, ?_⟩, ?_, ?_, ?_, fun i => ⟨?_, ?_⟩, fun i => ⟨?_, ?_, ?_, ?_, ?_, ?_⟩,
    fun i => ⟨?_, ?_⟩⟩
  · exact read (reg := .STATE) (c := .rw) (by decide) fun _ => rfl
  · exact read (reg := .K) (c := .rwL) (by decide) (fun _ => rfl) i
  · exact read (reg := .TOP) (c := .rwL) (by decide) (fun _ => rfl) i
  · exact read (reg := .TOPC_IN) (c := .rwL) (by decide) (fun _ => rfl) i
  · exact read (reg := .RAND) (c := .rwL) (by decide) fun _ => rfl
  · exact read (reg := .SQN) (c := .rwL) (by decide) fun _ => rfl
  · exact read (reg := .AMF) (c := .rwL) (by decide) fun _ => rfl
  · exact read (reg := .FIELD) (c := .rw) (by decide) (fun _ => rfl) i
  · exact read (reg := .TOPC_CACHE) (c := .ro) (by decide) (fun _ => rfl) i
  · exact read (reg := .TOPC_OUT) (c := .ro) (by decide) (fun _ => rfl) i
  · exact read (reg := .MACA) (c := .ro) (by decide) (fun _ => rfl) i
  · exact read (reg := .MACS) (c := .ro) (by decide) (fun _ => rfl) i
  · exact read (reg := .RES) (c := .ro) (by decide) (fun _ => rfl) i
  · exact read (reg := .CK) (c := .ro) (by decide) (fun _ => rfl) i
  · exact read (reg := .IK) (c := .ro) (by decide) (fun _ => rfl) i
  · exact read (reg := .AK) (c := .ro) (by decide) (fun _ => rfl) i
  · exact read (reg := .AKS) (c := .ro) (by decide) (fun _ => rfl) i

/-- Settles O60: each address falls in its register's row, and the status codes are as R43 and R300 list them. -/
theorem byteRegistersReadAtTheirAddresses : Obligations.ByteRegistersReadAtTheirAddresses := by
  unfold Obligations.ByteRegistersReadAtTheirAddresses
  intro s
  refine ⟨⟨rfl, rfl, rfl, rfl, rfl, rfl, rfl⟩, ⟨rfl, rfl, rfl, rfl, rfl⟩, ⟨rfl, rfl, rfl, rfl, rfl, rfl, rfl, rfl⟩, ?_, ?_⟩
  · change s.sess.code = _
    cases s.sess <;> rfl
  · change s.err.code = _
    cases s.err <;> rfl

end Sys2Proof.Machine
end

section
/-! SUPPORT. A derivation in closed form, for every family at once: what it iterates, which output registers it fills,
and what each driver command does with it. -/

namespace Sys2Proof.Machine

/-! ## The loop of `Iterate` (R243) -/

/-- The debug events of one derivation on the block `b` appended to the history (R312). -/
def State.report (label : Family) (b : Buf) (s : State) : State :=
  { s with dbg := s.dbg ++ s.derivationEvents label b }

/-- The event before the first application, then the loop's. -/
theorem derivationEvents_eq (s : State) (label : Family) (b : Buf) :
    s.derivationEvents label b =
      if s.dbgEn then ⟨label, 0, b⟩ :: loopEvents permute label s.iter.toNat 1 b else [] := by
  unfold State.derivationEvents loopEvents
  generalize permute = f
  simp [List.range_succ_eq_map, Function.comp_def, Nat.add_comm 1]

/-- `Iterate` applies the permutation ITER times and reports; nothing but the event history changes. -/
theorem iterate_eq (label : Family) (b : Buf) (s : State) :
    iterate label b s = (s.iterated b, s.report label b) := by
  rw [iterate, iterLoop_eq, State.iterated, State.report, derivationEvents_eq]
  generalize permute = f
  cases hd : s.dbgEn <;> simp [State.emit, hd]

/-- `DeriveTOPc` is the TOPc derivation's last output, its first 32 bytes (R244). -/
theorem deriveTopc_eq (kbits : Nat) (s : State) :
    deriveTopc kbits s =
      (pullField (s.iterated (topcBlock kbits s)) 0 32, s.report .topc (topcBlock kbits s)) := by
  rw [deriveTopc, iterate_eq]

/-! ## One derivation, whatever its family -/

/-- The block a family assembles from the registers, with its configuration byte (R244, R247). -/
def familyBlock (fam : Family) (inst : Byte) (s : State) : Buf :=
  match fam with
  | .topc => assembleState s.topValue inst none none none s.keyValue
  | .f1 => macBlock inst s
  | .f1star => macBlock inst s
  | .f2345 => randBlock inst s
  | .f5star => randBlock inst s

/-- The output registers of a family take their bytes of the iterated block `b` (R245, R248 to R251). -/
def State.withOutputs (fam : Family) (b : Buf) (s : State) : State :=
  match fam with
  | .topc => { s with topcOut := writeOut 32 (pullField b 0 32) }
  | .f1 => { s with maca := writeOut 32 (pullField b 0 (s.maclength.toNat / 8)) }
  | .f1star => { s with macs := writeOut 32 (pullField b 0 (s.maclength.toNat / 8)) }
  | .f2345 => { s with
      res := writeOut 32 (pullField b 0 (s.reslength.toNat / 8))
      ck := writeOut 32 (pullField b 32 (s.cklength.toNat / 8))
      ik := writeOut 32 (pullField b 64 (s.iklength.toNat / 8))
      ak := writeOut 6 (pullField b 96 6) }
  | .f5star => { s with aks := writeOut 6 (pullField b 96 6) }

/-- A family's derivation: assemble, iterate and report, fill the outputs. -/
def runFamily (fam : Family) (inst : Byte) (s : State) : State :=
  (s.report fam (familyBlock fam inst s)).withOutputs fam (s.iterated (familyBlock fam inst s))

theorem runF1_eq (inst : Byte) (s : State) : runF1 inst s = (runFamily .f1 inst s).fEnd := by
  rw [runF1, iterate_eq]; rfl

theorem runF1Star_eq (inst : Byte) (s : State) : runF1Star inst s = (runFamily .f1star inst s).fEnd := by
  rw [runF1Star, iterate_eq]; rfl

theorem runF2345_eq (inst : Byte) (s : State) : runF2345 inst s = (runFamily .f2345 inst s).fEnd := by
  rw [runF2345, iterate_eq]; rfl

theorem runF5Star_eq (inst : Byte) (s : State) : runF5Star inst s = (runFamily .f5star inst s).fEnd := by
  rw [runF5Star, iterate_eq]; rfl

theorem runComputeTopc_eq (kbits : Nat) (s : State) :
    runComputeTopc kbits s = (runFamily .topc (keyFlag kbits) s).done := by
  rw [runComputeTopc, deriveTopc_eq]; rfl

/-- On an UNINITIALIZED session TOPc is derived, reported and cached (R246). -/
theorem resolveTopc_uninitialized {s : State} (h : s.sess = .uninitialized) (kbits : Nat) :
    resolveTopc kbits s =
      { s.report .topc (topcBlock kbits s) with
        topcCache := fill 32 (pullField (s.iterated (topcBlock kbits s)) 0 32)
        sess := .topcResolved } := by
  rw [resolveTopc, if_pos h, deriveTopc_eq]

/-- The four F-commands are one command over their families (R246). -/
theorem exec_family {fam : Family} {i : Instr} (h : Family.command fam = some i) (s : State) :
    exec i s = s.endWith (fun p => (runFamily fam p.1 p.2).fEnd) (fBegin fam s) := by
  cases fam with
  | topc => cases h
  | f1 => cases h; exact congrArg (s.endWith · _) (funext fun p => runF1_eq p.1 p.2)
  | f1star => cases h; exact congrArg (s.endWith · _) (funext fun p => runF1Star_eq p.1 p.2)
  | f2345 => cases h; exact congrArg (s.endWith · _) (funext fun p => runF2345_eq p.1 p.2)
  | f5star => cases h; exact congrArg (s.endWith · _) (funext fun p => runF5Star_eq p.1 p.2)

/-- COMPUTE_TOPC is the TOPc derivation after its checks (R245). -/
theorem exec_computeTopc (s : State) :
    exec .computeTopc s =
      s.endWith (fun kbits => (runFamily .topc (keyFlag kbits) s).done) (topcChecks s) :=
  congrArg (s.endWith · _) (funext fun kbits => runComputeTopc_eq kbits s)

end Sys2Proof.Machine
end

section
/-! SUPPORT. The checks of the driver commands and the selector, and what a command that passes them does: one
statement, `exec_cases`, that every later proof about commands takes apart. -/

namespace Sys2Proof.Machine

/-! ## The checks -/

/-- The session's source of TOPc: a TOPc of 32 bytes, or without one a TOP of 32 bytes (R241). -/
abbrev State.topcSourceOk (s : State) : Prop :=
  s.topcIn.len.toNat = 32 ∨ (s.topcIn.len.toNat = 0 ∧ s.top.len.toNat = 32)

/-- The checks of SESSION_INIT pass exactly with no session and legal inputs, and never answer with the code OK
(R241). -/
theorem sessionChecks_cases (s : State) :
    ((s.sess = .none ∧ s.inputsOk ∧ s.topcSourceOk) ∧ sessionChecks s = .ok ()) ∨
      (¬ (s.sess = .none ∧ s.inputsOk ∧ s.topcSourceOk) ∧ ∃ e, e ≠ .ok ∧ sessionChecks s = .error e) := by
  by_cases hk : s.keyOk
  · simp only [sessionChecks, resolveKBits_ok hk]
    split_ifs <;> grind
  · simp only [sessionChecks, resolveKBits_error hk]
    split_ifs <;> grind

/-- The checks of COMPUTE_TOPC never answer with the code OK (R245). -/
theorem topcChecks_ne_ok (s : State) : topcChecks s ≠ .error .ok := by
  by_cases hk : s.keyOk
  · simp only [topcChecks, resolveKBits_ok hk]
    split_ifs <;> simp
  · simp [topcChecks, resolveKBits_error hk]

/-- Nor do those of INSTANCE (R220). -/
theorem resolveInst_ne_ok (fam : Family) (s : State) : resolveInst fam s ≠ .error .ok := by
  by_cases hk : s.keyOk
  · by_cases hl : s.lengthsOk fam
    · obtain ⟨v, hv⟩ := instByte_ok hl (8 * s.k.len.toNat)
      simp [resolveInst, resolveKBits_ok hk, hv]
    · simp [resolveInst, resolveKBits_ok hk, instByte_error hl]
  · simp [resolveInst, resolveKBits_error hk]

/-- `FBegin` succeeds on a session with legal lengths, and never answers with the code OK otherwise (R246). -/
theorem fBegin_cases (fam : Family) (s : State) :
    (∃ e, e ≠ .ok ∧ fBegin fam s = .error e) ∨
      (s.sess ≠ .none ∧ s.keyOk ∧ s.lengthsOk fam ∧ packedOk fam s ∧
        ∃ v, instByte fam (8 * s.k.len.toNat) s = .ok v ∧ fBegin fam s = .ok (v, resolveTopc (8 * s.k.len.toNat) s)) := by
  by_cases hn : s.sess = .none
  · exact .inl ⟨.sequence, by simp, fBegin_none hn fam⟩
  · by_cases hc : s.keyOk ∧ s.lengthsOk fam ∧ packedOk fam s
    · obtain ⟨hk, hl, hp⟩ := hc
      exact .inr ⟨hn, hk, hl, hp, fBegin_ok hn hk hl hp⟩
    · exact .inl ⟨.invalidParameter, by simp, fBegin_error hn hc⟩

/-! ## What a command does -/

/-- What an F-command that does not fail does: TOPc resolved, then its family's derivation on a READY session; and the
checks that passed (R246). -/
def FamilySucceeds (fam : Family) (s t : State) : Prop :=
  s.sess ≠ .none ∧ s.keyOk ∧ s.lengthsOk fam ∧ packedOk fam s ∧
    ∃ inst, instByte fam (8 * s.k.len.toNat) s = .ok inst ∧
      t = (runFamily fam inst (resolveTopc (8 * s.k.len.toNat) s)).fEnd

/-- What a command that does not fail does: the state it leaves and the checks that passed. -/
def Succeeds (s t : State) : Instr → Prop
  | .nop => t = s.done
  | .stateInit => t = { s with stateBuf := newState }.done
  | .permute len => len.toNat = 200 ∧ t = { s with stateBuf := permute s.stateBuf }.done
  | .pushField off len => fieldFits off len = true ∧
      t = { s with stateBuf := pushField s.stateBuf off.toNat (firstBytes s.field len.toNat) }.done
  | .pullField off len => fieldFits off len = true ∧
      t = { s with field := fill 32 (pullField s.stateBuf off.toNat len.toNat) }.done
  | .selectInst sel => ∃ fam v, familyOfCode sel = some fam ∧ resolveInst fam s = .ok v ∧
      t = { s with inst := v }.done
  | .sessionInit => s.sess = .none ∧ s.inputsOk ∧ s.topcSourceOk ∧ t = (openSession s).done
  | .sessionClose => t = { s with sess := .none, topcCache := zeros 32 }.done
  | .computeTopc => ∃ kbits, topcChecks s = .ok kbits ∧ t = (runFamily .topc (keyFlag kbits) s).done
  | .f1 => FamilySucceeds .f1 s t
  | .f1star => FamilySucceeds .f1star s t
  | .f2345 => FamilySucceeds .f2345 s t
  | .f5star => FamilySucceeds .f5star s t

/-- A choice between two next states ends in one of them. -/
theorem next_of_ite {c : Prop} [Decidable c] {a b t : State}
    (h : (if c then .next a else .next b : Host.Outcome State Fault Refusal) = .next t) :
    (c ∧ t = a) ∨ (¬ c ∧ t = b) := by
  split at h <;> cases h
  · exact .inl ⟨‹_›, rfl⟩
  · exact .inr ⟨‹_›, rfl⟩

/-- A check that never answers with the code OK ends in an error's effect or in its success. -/
theorem endWith_next {α : Type} {s t : State} {f : α → State} {c : Except Err α} (h : s.endWith f c = .next t)
    (hc : c ≠ .error .ok) : (∃ e, e ≠ .ok ∧ t = s.raise e) ∨ ∃ a, c = .ok a ∧ t = f a := by
  rcases endWith_cases s f c with ⟨e, he, hnext⟩ | ⟨a, ha, hnext⟩ <;> rw [hnext] at h <;> cases h
  · exact .inl ⟨e, fun hok => hc (by rw [he, hok]), rfl⟩
  · exact .inr ⟨a, ha, rfl⟩

theorem exec_family_cases {s t : State} {fam : Family} {i : Instr} (hcmd : Family.command fam = some i)
    (h : exec i s = .next t) : (∃ e, e ≠ .ok ∧ t = s.raise e) ∨ FamilySucceeds fam s t := by
  rw [exec_family hcmd] at h
  rcases fBegin_cases fam s with ⟨e, hne, he⟩ | ⟨hsess, hkey, hlen, hpacked, v, hinst, hv⟩
  · rw [he] at h; cases h
    exact .inl ⟨e, hne, rfl⟩
  · rw [hv] at h; cases h
    exact .inr ⟨hsess, hkey, hlen, hpacked, v, hinst, rfl⟩

/-- INSTANCE by its selector: a family's byte after its checks, or no family (R220). -/
theorem exec_selectInst_cases (sel : Byte) (s : State) :
    (familyOfCode sel = none ∧ exec (.selectInst sel) s = .next (s.raise .illegalCommand)) ∨
      ∃ fam, familyOfCode sel = some fam ∧
        exec (.selectInst sel) s = s.endWith (fun v => { s with inst := v }.done) (resolveInst fam s) := by
  change (_ ∧ execSelectInst sel s = _) ∨ ∃ fam, _ ∧ execSelectInst sel s = _
  cases hfam : familyOfCode sel with
  | none => exact .inl ⟨rfl, by simp only [execSelectInst, hfam]⟩
  | some fam => exact .inr ⟨fam, rfl, by simp only [execSelectInst, hfam]⟩

theorem exec_selectInst_none {sel : Byte} (h : familyOfCode sel = none) (s : State) :
    exec (.selectInst sel) s = .next (s.raise .illegalCommand) := by
  rcases exec_selectInst_cases sel s with ⟨-, hexec⟩ | ⟨fam, hfam, -⟩
  · exact hexec
  · rw [h] at hfam; cases hfam

theorem exec_selectInst_some {sel : Byte} {fam : Family} (h : familyOfCode sel = some fam) (s : State) :
    exec (.selectInst sel) s = s.endWith (fun v => { s with inst := v }.done) (resolveInst fam s) := by
  rcases exec_selectInst_cases sel s with ⟨hnone, -⟩ | ⟨fam', hfam, hexec⟩
  · rw [h] at hnone; cases hnone
  · rw [h] at hfam; cases hfam; exact hexec

/-- SESSION_INIT is its checks and the session they open (R241). -/
theorem exec_sessionInit_cases (s : State) :
    ((s.sess = .none ∧ s.inputsOk ∧ s.topcSourceOk) ∧ exec .sessionInit s = .next (openSession s).done) ∨
      (¬ (s.sess = .none ∧ s.inputsOk ∧ s.topcSourceOk) ∧ ∃ e, e ≠ .ok ∧ exec .sessionInit s = .next (s.raise e)) := by
  rcases sessionChecks_cases s with ⟨hpass, hok⟩ | ⟨hfail, e, hne, he⟩
  · exact .inl ⟨hpass, congrArg (s.endWith fun _ => (openSession s).done) hok⟩
  · exact .inr ⟨hfail, e, hne, congrArg (s.endWith fun _ => (openSession s).done) he⟩

/-- A session opened with a TOPc supplied is READY with it cached (R241). -/
theorem openSession_supplied {s : State} (h : s.topcIn.len.toNat = 32) :
    openSession s = { s with topcCache := s.topcIn.bytes, sess := .ready } := if_pos h

/-- One opened without is UNINITIALIZED. -/
theorem openSession_derived {s : State} (h : s.topcIn.len.toNat ≠ 32) :
    openSession s = { s with sess := .uninitialized } := if_neg h

/-- What `exec` can do: a command raises an error other than OK and does nothing else, or succeeds. -/
theorem exec_cases {i : Instr} {s t : State} (h : exec i s = .next t) :
    (∃ e, e ≠ .ok ∧ t = s.raise e) ∨ Succeeds s t i := by
  cases i with
  | nop => cases h; exact .inr rfl
  | stateInit => cases h; exact .inr rfl
  | permute len =>
    rcases next_of_ite h with ⟨-, ht⟩ | ⟨hlen, ht⟩
    · exact .inl ⟨.invalidLength, by simp, ht⟩
    · exact .inr ⟨not_not.mp hlen, ht⟩
  | pushField off len =>
    rcases next_of_ite h with ⟨hfit, ht⟩ | ⟨-, ht⟩
    · exact .inr ⟨hfit, ht⟩
    · exact .inl ⟨.invalidParameter, by simp, ht⟩
  | pullField off len =>
    rcases next_of_ite h with ⟨hfit, ht⟩ | ⟨-, ht⟩
    · exact .inr ⟨hfit, ht⟩
    · exact .inl ⟨.invalidParameter, by simp, ht⟩
  | selectInst sel =>
    rcases exec_selectInst_cases sel s with ⟨-, hexec⟩ | ⟨fam, hfam, hexec⟩ <;> rw [hexec] at h
    · cases h; exact .inl ⟨_, by simp, rfl⟩
    · exact (endWith_next h (resolveInst_ne_ok fam s)).imp_right fun ⟨v, hv, ht⟩ => ⟨fam, v, hfam, hv, ht⟩
  | sessionInit =>
    rcases exec_sessionInit_cases s with ⟨⟨hsess, hin, hsrc⟩, hexec⟩ | ⟨-, e, hne, hexec⟩ <;> rw [hexec] at h <;> cases h
    · exact .inr ⟨hsess, hin, hsrc, rfl⟩
    · exact .inl ⟨e, hne, rfl⟩
  | sessionClose => cases h; exact .inr rfl
  | computeTopc =>
    rw [exec_computeTopc] at h
    exact endWith_next h (topcChecks_ne_ok s)
  | f1 => exact exec_family_cases (fam := .f1) rfl h
  | f1star => exact exec_family_cases (fam := .f1star) rfl h
  | f2345 => exact exec_family_cases (fam := .f2345) rfl h
  | f5star => exact exec_family_cases (fam := .f5star) rfl h

end Sys2Proof.Machine
end

section
/-! PROOFS. SESSION_INIT. -/

namespace Sys2Proof.Machine

/-- Settles O35: the checks pass, and TOPC_LEN says which session opens. -/
theorem sessionInitOpensSession : Obligations.SessionInitOpensSession := by
  unfold Obligations.SessionInitOpensSession
  intro s hnone hin
  have hexec (hsrc : s.topcSourceOk) : exec .sessionInit s = .next (openSession s).done := by
    rcases exec_sessionInit_cases s with ⟨-, hexec⟩ | ⟨hfail, -⟩
    · exact hexec
    · exact absurd ⟨hnone, hin, hsrc⟩ hfail
  refine ⟨fun h32 => ?_, fun h0 => ?_⟩
  · rw [hexec (.inl h32), openSession_supplied h32]
    rfl
  · rw [hexec (.inr h0), openSession_derived (by omega)]
    rfl

end Sys2Proof.Machine
end

section
/-! SUPPORT. What commands keep: the registers no command writes, and the registers each may write. -/

namespace Sys2Proof.Machine

/-! ## Registers that no command writes (R57) -/

/-- The registers that a session's TOPc and legality are computed from (R241, R244). -/
def State.sessionInputs (s : State) :=
  (s.k, s.top, s.topcIn, s.rand, s.sqn, s.amf, s.klength, s.iter)

/-- The part of the state that no command writes: the host's inputs, CTRL, the command registers and the two ends of
the port. -/
def State.commandInputs (s : State) :=
  (s.sessionInputs, (s.maclength, s.reslength, s.cklength, s.iklength), (s.dbgEn, s.cmdOp, s.cmdA0, s.cmdA1),
    s.port, s.readData)

section
variable {s t : State} (h : t.commandInputs = s.commandInputs)
include h

theorem sessionInputs_of_commandInputs : t.sessionInputs = s.sessionInputs := congrArg Prod.fst h

theorem k_of_commandInputs : t.k = s.k := congrArg (·.1.1) h

theorem dbgEn_of_commandInputs : t.dbgEn = s.dbgEn := congrArg (·.2.2.1.1) h

theorem port_of_commandInputs : t.port = s.port := congrArg (·.2.2.2.1) h

theorem readData_of_commandInputs : t.readData = s.readData := congrArg (·.2.2.2.2) h

end

theorem commandInputs_runFamily (fam : Family) (inst : Byte) (s : State) :
    (runFamily fam inst s).commandInputs = s.commandInputs := by
  cases fam <;> rfl

theorem commandInputs_resolveTopc (kbits : Nat) (s : State) :
    (resolveTopc kbits s).commandInputs = s.commandInputs := by
  by_cases h : s.sess = .uninitialized
  · rw [resolveTopc_uninitialized h]; rfl
  · rw [resolveTopc_other h]

theorem commandInputs_openSession (s : State) : (openSession s).commandInputs = s.commandInputs := by
  by_cases h : s.topcIn.len.toNat = 32
  · rw [openSession_supplied h]; rfl
  · rw [openSession_derived h]; rfl

/-- STATE is none of them. Stated for every buffer, so that no check of it evaluates a permutation. -/
theorem commandInputs_stateBuf (s : State) (b : Buf) :
    (State.done { s with stateBuf := b }).commandInputs = s.commandInputs := rfl

theorem FamilySucceeds.commandInputs {fam : Family} {s t : State} (h : FamilySucceeds fam s t) :
    t.commandInputs = s.commandInputs := by
  obtain ⟨-, -, -, -, inst, -, rfl⟩ := h
  exact (commandInputs_runFamily fam inst _).trans (commandInputs_resolveTopc _ s)

/-- No command writes an input register, CTRL, a command register or an end of the port. -/
theorem exec_commandInputs {i : Instr} {s t : State} (h : exec i s = .next t) :
    t.commandInputs = s.commandInputs := by
  rcases exec_cases h with ⟨e, -, rfl⟩ | hs
  · rfl
  cases i with
  | nop | sessionClose => obtain rfl := hs; rfl
  | stateInit => obtain rfl := hs; exact commandInputs_stateBuf s _
  | permute len => obtain ⟨-, rfl⟩ := hs; exact commandInputs_stateBuf s _
  | pushField off len => obtain ⟨-, rfl⟩ := hs; exact commandInputs_stateBuf s _
  | pullField off len => obtain ⟨-, rfl⟩ := hs; rfl
  | selectInst sel => obtain ⟨fam, v, -, -, rfl⟩ := hs; rfl
  | sessionInit => obtain ⟨-, -, -, rfl⟩ := hs; exact commandInputs_openSession s
  | computeTopc => obtain ⟨kbits, -, rfl⟩ := hs; exact commandInputs_runFamily .topc (keyFlag kbits) s
  | f1 | f1star | f2345 | f5star => exact FamilySucceeds.commandInputs hs

/-! ## Registers that a command may write (R57) -/

/-- The output registers of a family, with their lengths. -/
def outputRegs : Family → List Reg
  | .topc => [.TOPC_OUT, .TOPC_OUT_LEN]
  | .f1 => [.MACA, .MACA_LEN]
  | .f1star => [.MACS, .MACS_LEN]
  | .f2345 => [.RES, .RES_LEN, .CK, .CK_LEN, .IK, .IK_LEN, .AK, .AK_LEN]
  | .f5star => [.AKS, .AKS_LEN]

/-- The registers a command may write, past ERR. -/
def resultRegs : Instr → List Reg
  | .nop => []
  | .stateInit => [.STATE]
  | .permute _ => [.STATE]
  | .pushField _ _ => [.STATE]
  | .pullField _ _ => [.FIELD]
  | .selectInst _ => [.INST]
  | .sessionInit => [.SESS, .TOPC_CACHE]
  | .sessionClose => [.SESS, .TOPC_CACHE]
  | .computeTopc => outputRegs .topc
  | .f1 => .SESS :: .TOPC_CACHE :: outputRegs .f1
  | .f1star => .SESS :: .TOPC_CACHE :: outputRegs .f1star
  | .f2345 => .SESS :: .TOPC_CACHE :: outputRegs .f2345
  | .f5star => .SESS :: .TOPC_CACHE :: outputRegs .f5star

variable {s : State} {r : Reg} {j : Nat}

theorem regByte_raise (e : Err) (h : r ≠ .ERR) : (s.raise e).regByte r j = s.regByte r j := by
  cases r with
  | ERR => exact absurd rfl h
  | _ => rfl

theorem regByte_done (h : r ≠ .ERR) : s.done.regByte r j = s.regByte r j := regByte_raise .ok h

theorem regByte_stateBuf (b : Buf) (h : r ≠ .STATE) : State.regByte { s with stateBuf := b } r j = s.regByte r j := by
  cases r with
  | STATE => exact absurd rfl h
  | _ => rfl

theorem regByte_field (v : Vector Byte 32) (h : r ≠ .FIELD) :
    State.regByte { s with field := v } r j = s.regByte r j := by
  cases r with
  | FIELD => exact absurd rfl h
  | _ => rfl

theorem regByte_inst (v : Byte) (h : r ≠ .INST) : State.regByte { s with inst := v } r j = s.regByte r j := by
  cases r with
  | INST => exact absurd rfl h
  | _ => rfl

/-- SESS, TOPC_CACHE and the event history, which is no register. -/
theorem regByte_session (c : Sess) (v : Vector Byte 32) (l : List DbgEvent) (hs : r ≠ .SESS) (hc : r ≠ .TOPC_CACHE) :
    State.regByte { s with sess := c, topcCache := v, dbg := l } r j = s.regByte r j := by
  cases r with
  | SESS => exact absurd rfl hs
  | TOPC_CACHE => exact absurd rfl hc
  | _ => rfl

theorem regByte_fEnd (h : r ≠ .ERR) (hs : r ≠ .SESS) : s.fEnd.regByte r j = s.regByte r j := by
  cases r with
  | ERR => exact absurd rfl h
  | SESS => exact absurd rfl hs
  | _ => rfl

theorem regByte_openSession (hs : r ≠ .SESS) (hc : r ≠ .TOPC_CACHE) :
    (openSession s).regByte r j = s.regByte r j := by
  by_cases h : s.topcIn.len.toNat = 32
  · rw [openSession_supplied h]
    exact regByte_session _ _ _ hs hc
  · rw [openSession_derived h]
    exact regByte_session _ _ _ hs hc

theorem regByte_resolveTopc (kbits : Nat) (hs : r ≠ .SESS) (hc : r ≠ .TOPC_CACHE) :
    (resolveTopc kbits s).regByte r j = s.regByte r j := by
  by_cases h : s.sess = .uninitialized
  · rw [resolveTopc_uninitialized h]
    exact regByte_session _ _ _ hs hc
  · rw [resolveTopc_other h]

theorem regByte_runFamily (fam : Family) (inst : Byte) (h : r ∉ outputRegs fam) :
    (runFamily fam inst s).regByte r j = s.regByte r j := by
  cases fam with
  | topc =>
    cases r with
    | TOPC_OUT | TOPC_OUT_LEN => exact absurd (by decide) h
    | _ => rfl
  | f1 =>
    cases r with
    | MACA | MACA_LEN => exact absurd (by decide) h
    | _ => rfl
  | f1star =>
    cases r with
    | MACS | MACS_LEN => exact absurd (by decide) h
    | _ => rfl
  | f2345 =>
    cases r with
    | RES | RES_LEN | CK | CK_LEN | IK | IK_LEN | AK | AK_LEN => exact absurd (by decide) h
    | _ => rfl
  | f5star =>
    cases r with
    | AKS | AKS_LEN => exact absurd (by decide) h
    | _ => rfl

theorem FamilySucceeds.regByte {fam : Family} {t : State} (h : FamilySucceeds fam s t) (he : r ≠ .ERR)
    (hr : r ∉ .SESS :: .TOPC_CACHE :: outputRegs fam) : t.regByte r j = s.regByte r j := by
  obtain ⟨-, -, -, -, inst, -, rfl⟩ := h
  simp only [List.mem_cons, not_or] at hr
  obtain ⟨hsess, hcache, hout⟩ := hr
  rw [regByte_fEnd he hsess, regByte_runFamily fam inst hout, regByte_resolveTopc _ hsess hcache]

/-- A register that is neither ERR nor a result of the command keeps every byte. -/
theorem exec_regByte {i : Instr} {t : State} (h : exec i s = .next t) (he : r ≠ .ERR) (hr : r ∉ resultRegs i) :
    t.regByte r j = s.regByte r j := by
  rcases exec_cases h with ⟨e, -, rfl⟩ | hs
  · exact regByte_raise e he
  cases i with
  | nop => obtain rfl := hs; exact regByte_done he
  | stateInit => obtain rfl := hs; rw [regByte_done he, regByte_stateBuf _ (mt List.mem_singleton.mpr hr)]
  | permute len => obtain ⟨-, rfl⟩ := hs; rw [regByte_done he, regByte_stateBuf _ (mt List.mem_singleton.mpr hr)]
  | pushField off len => obtain ⟨-, rfl⟩ := hs; rw [regByte_done he, regByte_stateBuf _ (mt List.mem_singleton.mpr hr)]
  | pullField off len => obtain ⟨-, rfl⟩ := hs; rw [regByte_done he, regByte_field _ (mt List.mem_singleton.mpr hr)]
  | selectInst sel =>
    obtain ⟨fam, v, -, -, rfl⟩ := hs; rw [regByte_done he, regByte_inst _ (mt List.mem_singleton.mpr hr)]
  | sessionInit =>
    obtain ⟨-, -, -, rfl⟩ := hs
    simp only [resultRegs, List.mem_cons, not_or] at hr
    rw [regByte_done he, regByte_openSession hr.1 hr.2.1]
  | sessionClose =>
    obtain rfl := hs
    simp only [resultRegs, List.mem_cons, not_or] at hr
    rw [regByte_done he, regByte_session _ _ s.dbg hr.1 hr.2.1]
  | computeTopc => obtain ⟨kbits, -, rfl⟩ := hs; rw [regByte_done he, regByte_runFamily .topc (keyFlag kbits) hr]
  | f1 | f1star | f2345 | f5star => exact FamilySucceeds.regByte hs he hr

/-! ## The addresses of those registers (R92) -/

/-- The addresses of a command's results, as `mayWrite` lists them: a base and a number of bytes each. -/
def resultSpans : Instr → List (Nat × Nat)
  | .nop => []
  | .stateInit => [(0x000, 200)]
  | .permute _ => [(0x000, 200)]
  | .pushField off len => [(off.toNat, len.toNat)]
  | .pullField _ _ => [(0x1A0, 32)]
  | .selectInst _ => [(0x1E2, 1)]
  | .sessionInit => [(0x1E0, 1), (0x1C0, 32)]
  | .sessionClose => [(0x1E0, 1), (0x1C0, 32)]
  | .computeTopc => [(0x200, 32), (0x2D0, 1)]
  | .f1 => [(0x1E0, 1), (0x1C0, 32), (0x220, 32), (0x2D1, 1)]
  | .f1star => [(0x1E0, 1), (0x1C0, 32), (0x240, 32), (0x2D2, 1)]
  | .f2345 => [(0x1E0, 1), (0x1C0, 32), (0x260, 96), (0x2C0, 6), (0x2D3, 4)]
  | .f5star => [(0x1E0, 1), (0x1C0, 32), (0x2C8, 6), (0x2D7, 1)]

theorem mayWrite_eq (i : Instr) (a : Nat) :
    mayWrite i a = (within 0x1E1 1 a || (resultSpans i).any fun p => within p.1 p.2 a) := by
  cases i <;> simp [mayWrite, resultSpans, Bool.or_assoc]

/-- The rows of some registers lie within some spans of addresses. -/
abbrev RowsWithin (regs : List Reg) (spans : List (Nat × Nat)) : Prop :=
  ∀ row ∈ regMap, row.reg ∈ regs → ∃ p ∈ spans, p.1 ≤ row.base ∧ row.base + row.bytes ≤ p.1 + p.2

/-- The rows of a command's results lie within its spans; PUSH_FIELD's is a part of STATE's row. -/
theorem resultRegs_within {i : Instr} (hi : ∀ off len, i ≠ .pushField off len) :
    RowsWithin (resultRegs i) (resultSpans i) := by
  cases i with
  | pushField off len => exact absurd rfl (hi off len)
  | nop => exact (by decide : RowsWithin [] [])
  | stateInit | permute => exact (by decide : RowsWithin [.STATE] [(0x000, 200)])
  | pullField => exact (by decide : RowsWithin [.FIELD] [(0x1A0, 32)])
  | selectInst => exact (by decide : RowsWithin [.INST] [(0x1E2, 1)])
  | _ => unfold RowsWithin; decide

/-- Every byte of a command's results is one it may write. -/
theorem mayWrite_resultRegs {i : Instr} (hi : ∀ off len, i ≠ .pushField off len) {row : RegRow} (hrow : row ∈ regMap)
    (hreg : row.reg ∈ resultRegs i) {a : Nat} (hlo : row.base ≤ a) (hhi : a < row.base + row.bytes) :
    mayWrite i a = true := by
  obtain ⟨p, hp, hbase, hend⟩ := resultRegs_within hi row hrow hreg
  rw [mayWrite_eq, Bool.or_eq_true, List.any_eq_true]
  exact .inr ⟨p, hp, by simp only [within, decide_eq_true_eq]; omega⟩

/-- A byte of STATE outside PUSH_FIELD's range stays as it was (R192). -/
theorem exec_pushField_outside {off len : Byte} {t : State} (h : exec (.pushField off len) s = .next t) (hj : j < 200)
    (hout : within off.toNat len.toNat j = false) : byteAt t.stateBuf j = byteAt s.stateBuf j := by
  rcases exec_cases h with ⟨e, -, rfl⟩ | ⟨hfit, rfl⟩
  · rfl
  · have hlen : len.toNat ≤ 32 := (of_decide_eq_true hfit).1
    simp only [within, decide_eq_false_iff_not] at hout
    simp only [State.done_stateBuf, byteAt_of_lt _ hj]
    exact getElem_pushField_outside _ _ _ hj (by simpa [Nat.min_eq_left hlen] using hout)

/-- A host address outside those a command may write reads as before. -/
theorem exec_readByte {i : Instr} {t : State} (h : exec i s = .next t) {a : Addr} (ha : mayWrite i a.toNat = false) :
    t.readByte a = s.readByte a := by
  cases hrow : rowAt a.toNat with
  | none => rw [readByte_reserved hrow, readByte_reserved hrow]
  | some row =>
    obtain ⟨hmem, hlo, hhi⟩ := rowAt_mem hrow
    rw [readByte_row hrow, readByte_row hrow]
    have hrows : ∀ row ∈ regMap, (row.reg = .ERR → row = ⟨0x1E1, .ERR, 1, .ro⟩) ∧
        (row.reg = .STATE → row = ⟨0x000, .STATE, 200, .rw⟩) := by decide
    have herr : row.reg ≠ .ERR := by
      intro hreg
      obtain rfl := (hrows row hmem).1 hreg
      dsimp only at hlo hhi
      simp only [mayWrite_eq, Bool.or_eq_false_iff, within, decide_eq_false_iff_not] at ha
      omega
    by_cases hreg : row.reg ∈ resultRegs i
    · cases i with
      | pushField off len =>
        obtain rfl := (hrows row hmem).2 (List.mem_singleton.mp hreg)
        rw [mayWrite_eq, Bool.or_eq_false_iff] at ha
        exact exec_pushField_outside h (by simpa using hhi) (by simpa [resultSpans] using ha.2)
      | _ =>
        rw [mayWrite_resultRegs (by simp) hmem hreg hlo hhi] at ha
        cases ha
    · exact exec_regByte h herr hreg

end Sys2Proof.Machine
end

section
/-! PROOFS. What a command leaves unchanged, and the transitions of SESS. -/

namespace Sys2Proof.Machine

/-- Settles O48: a register that is not a result keeps its bytes, and the results lie at `mayWrite`'s addresses. -/
theorem commandFrame : Obligations.CommandFrame := by
  unfold Obligations.CommandFrame
  intro i s t h
  have hkeeps := exec_commandInputs h
  exact ⟨fun a ha => exec_readByte h ha, port_of_commandInputs hkeeps, readData_of_commandInputs hkeeps⟩

theorem sess_runFamily (fam : Family) (inst : Byte) (s : State) : (runFamily fam inst s).sess = s.sess := by
  cases fam <;> rfl

/-- A session opens READY or UNINITIALIZED by TOPC_LEN (R241). -/
theorem sess_openSession (s : State) :
    (openSession s).sess = if s.topcIn.len.toNat = 32 then .ready else .uninitialized := by
  by_cases h : s.topcIn.len.toNat = 32
  · rw [openSession_supplied h, if_pos h]
  · rw [openSession_derived h, if_neg h]

theorem FamilySucceeds.sess {fam : Family} {s t : State} (h : FamilySucceeds fam s t) :
    t.err = .ok ∧ s.sess ≠ .none ∧ t.sess = .ready := by
  obtain ⟨hsess, -, -, -, inst, -, rfl⟩ := h
  exact ⟨rfl, hsess, rfl⟩

/-- Settles O49, command by command. -/
theorem sessionTransitions : Obligations.SessionTransitions := by
  unfold Obligations.SessionTransitions
  intro i s t h
  rcases exec_cases h with ⟨e, hne, rfl⟩ | hs
  · exact ⟨fun _ => rfl, fun hok => absurd hok hne⟩
  suffices hok : t.err = .ok ∧ _ from ⟨fun hne => absurd hok.1 hne, fun _ => hok.2⟩
  cases i with
  | nop | stateInit | sessionClose => obtain rfl := hs; exact ⟨rfl, rfl⟩
  | permute len => obtain ⟨-, rfl⟩ := hs; exact ⟨rfl, rfl⟩
  | pushField off len => obtain ⟨-, rfl⟩ := hs; exact ⟨rfl, rfl⟩
  | pullField off len => obtain ⟨-, rfl⟩ := hs; exact ⟨rfl, rfl⟩
  | selectInst sel => obtain ⟨fam, v, -, -, rfl⟩ := hs; exact ⟨rfl, rfl⟩
  | sessionInit =>
    obtain ⟨hnone, -, hsrc, rfl⟩ := hs
    refine ⟨rfl, hnone, hsrc.imp (fun h32 => ⟨h32, ?_⟩) (fun ⟨h0, _⟩ => ⟨h0, ?_⟩)⟩
    · rw [State.done_sess, sess_openSession, if_pos h32]
    · rw [State.done_sess, sess_openSession, if_neg (by omega)]
  | computeTopc => obtain ⟨kbits, -, rfl⟩ := hs; exact ⟨rfl, sess_runFamily .topc (keyFlag kbits) s⟩
  | f1 | f1star | f2345 | f5star => exact FamilySucceeds.sess hs

end Sys2Proof.Machine
end

section
/-! PROOFS. The invariant of the states between host transactions: it holds at reset and every step keeps it. -/

namespace Sys2Proof.Machine

/-! ## What the invariant's parts depend on -/

section
variable {s t : State}

theorem sessionInputs_eq_iff : t.sessionInputs = s.sessionInputs ↔ t.k = s.k ∧ t.top = s.top ∧ t.topcIn = s.topcIn ∧
    t.rand = s.rand ∧ t.sqn = s.sqn ∧ t.amf = s.amf ∧ t.klength = s.klength ∧ t.iter = s.iter := by
  simp only [State.sessionInputs, Prod.mk.injEq]

/-- The legality of a session's inputs is a matter of its input registers. -/
theorem inputsOk_congr (h : t.sessionInputs = s.sessionInputs) :
    t.inputsOk ∧ t.topcSourceOk ↔ s.inputsOk ∧ s.topcSourceOk := by
  rw [sessionInputs_eq_iff] at h
  obtain ⟨hk, htop, htopcIn, hrand, hsqn, hamf, hklength, hiter⟩ := h
  simp only [State.inputsOk, State.keyOk, State.topcSourceOk, hk, htop, htopcIn, hrand, hsqn, hamf, hklength, hiter]

theorem sessionTopc_supplied (h : s.topcIn.len.toNat = 32) : s.sessionTopc = s.topcIn.bytes := if_pos h

theorem sessionTopc_derived (h : s.topcIn.len.toNat ≠ 32) : s.sessionTopc = fill 32 s.derivedTopc := if_neg h

/-- So is the session's TOPc (R241, R244). -/
theorem sessionTopc_congr (h : t.sessionInputs = s.sessionInputs) : t.sessionTopc = s.sessionTopc := by
  rw [sessionInputs_eq_iff] at h
  obtain ⟨hk, htop, htopcIn, -, -, -, -, hiter⟩ := h
  simp only [State.sessionTopc, State.derivedTopc, State.iterated, topcBlock, State.topValue, State.keyValue, hk, htop,
    htopcIn, hiter]

/-- The session part of the invariant, for each session state that the host sees. -/
theorem sessionOk_of_none (hsess : s.sess = .none) (hcache : s.topcCache = zeros 32) : s.sessionOk := by
  simp [State.sessionOk, hsess, hcache]

theorem sessionOk_of_uninitialized (hsess : s.sess = .uninitialized) (hcache : s.topcCache = zeros 32)
    (hlegal : s.inputsOk ∧ s.topcSourceOk) (hbuilt : s.topcIn.len.toNat = 0) : s.sessionOk :=
  ⟨fun _ => hcache, by simp [hsess], fun _ => hlegal, fun _ => hbuilt, fun h => by simp [hsess] at h⟩

theorem sessionOk_of_ready (hsess : s.sess = .ready) (hlegal : s.inputsOk ∧ s.topcSourceOk)
    (hcache : s.topcCache = s.sessionTopc) : s.sessionOk :=
  ⟨fun h => by simp [hsess] at h, by simp [hsess], fun _ => hlegal, fun h => by simp [hsess] at h, fun _ => hcache⟩

/-- A state with the same SESS and TOPC_CACHE, and in a session the same inputs, is as good. -/
theorem sessionOk_congr (hs : s.sessionOk) (hsess : t.sess = s.sess) (hcache : t.topcCache = s.topcCache)
    (hin : s.sess ≠ .none → t.sessionInputs = s.sessionInputs) : t.sessionOk := by
  obtain ⟨hzero, hseen, hlegal, hbuilt, hready⟩ := hs
  have hopen {c : Sess} (hc : s.sess = c) (hne : c ≠ .none) : t.sessionInputs = s.sessionInputs :=
    hin (hc.trans_ne hne)
  refine ⟨by rwa [hsess, hcache], by rwa [hsess], fun hne => ?_, fun hun => ?_, fun hre => ?_⟩
  · rw [hsess] at hne
    exact (inputsOk_congr (hin hne)).mpr (hlegal hne)
  · rw [hsess] at hun
    obtain ⟨-, -, htopcIn, -⟩ := sessionInputs_eq_iff.mp (hopen hun (by decide))
    rw [htopcIn]
    exact hbuilt hun
  · rw [hsess] at hre
    rw [hcache, hready hre, sessionTopc_congr (hopen hre (by decide))]

/-- The output registers, as one piece of data. -/
def State.outputs (s : State) :=
  (s.topcOut, s.maca, s.macs, s.res, s.ck, s.ik, s.ak, s.aks)

theorem outputs_eq_iff : t.outputs = s.outputs ↔ t.topcOut = s.topcOut ∧ t.maca = s.maca ∧ t.macs = s.macs ∧
    t.res = s.res ∧ t.ck = s.ck ∧ t.ik = s.ik ∧ t.ak = s.ak ∧ t.aks = s.aks := by
  simp only [State.outputs, Prod.mk.injEq]

theorem outputsOk_congr (h : t.outputs = s.outputs) (hs : s.outputsOk) : t.outputsOk := by
  rw [outputs_eq_iff] at h
  obtain ⟨h1, h2, h3, h4, h5, h6, h7, h8⟩ := h
  simpa only [State.outputsOk, h1, h2, h3, h4, h5, h6, h7, h8] using hs

/-- A state that differs in none of the registers the invariant speaks of meets it too. -/
theorem inv_congr (hs : s.Inv) (hsess : t.sess = s.sess) (hcache : t.topcCache = s.topcCache)
    (hin : t.sessionInputs = s.sessionInputs) (hout : t.outputs = s.outputs) : t.Inv :=
  ⟨sessionOk_congr hs.1 hsess hcache fun _ => hin, outputsOk_congr hout hs.2⟩

end

/-! ## Reset and host writes -/

/-- An output register at reset is empty. -/
theorem outOk_zero {cap : Nat} {lens : List Nat} (h : 0 ∈ lens) : (FieldReg.zero cap).outOk lens :=
  ⟨h, fun i _ => getElem_zeros i.isLt⟩

/-- Settles O51. -/
theorem resetMeetsInv : Obligations.ResetMeetsInv := by
  unfold Obligations.ResetMeetsInv
  exact ⟨sessionOk_of_none rfl rfl, outOk_zero (by simp), outOk_zero (by simp), outOk_zero (by simp), outOk_zero (by simp), outOk_zero (by simp),
    outOk_zero (by simp), outOk_zero (by simp), outOk_zero (by simp)⟩

/-- In a session only these registers take a host write (R49). -/
theorem reg_of_writable_in_session : ∀ row ∈ regMap, ∀ c : Sess, c ≠ .none → writable row.access c = true →
    row.reg ∈ [Reg.STATE, .FIELD, .CTRL, .CMD_OP, .CMD_A0, .CMD_A1] := by
  intro row hrow c hc hw
  have hclass : ∀ row ∈ regMap, row.access = .rw ∨ row.access = .rwT →
      row.reg ∈ [Reg.STATE, .FIELD, .CTRL, .CMD_OP, .CMD_A0, .CMD_A1] := by decide
  refine hclass row hrow ?_
  cases ha : row.access <;> simp_all [writable]

/-- Those are no session's inputs. -/
theorem sessionInputs_setRegByte {r : Reg} (hr : r ∈ [Reg.STATE, .FIELD, .CTRL, .CMD_OP, .CMD_A0, .CMD_A1]) (s : State)
    (i : Nat) (d : Byte) : (s.setRegByte r i d).sessionInputs = s.sessionInputs := by
  simp only [List.mem_cons, List.not_mem_nil, or_false] at hr
  rcases hr with rfl | rfl | rfl | rfl | rfl | rfl <;> rfl

/-- A host write keeps the invariant: in a session it reaches no input register (R49). -/
theorem writeByte_inv {s : State} (hs : s.Inv) (a : Addr) (d : Byte) : (s.writeByte a d).Inv := by
  cases hrow : rowAt a.toNat with
  | none => rwa [writeByte_reserved hrow]
  | some row =>
    cases hw : writable row.access s.sess with
    | false => rwa [writeByte_row_off hrow hw]
    | true =>
      rw [writeByte_row_on hrow hw]
      obtain ⟨hsess, -, -, hcache, h1, h2, h3, h4, h5, h6, h7, h8, -⟩ :=
        setRegByte_keeps s row.reg (a.toNat - row.base) d
      refine ⟨sessionOk_congr hs.1 hsess hcache fun hne => ?_, outputsOk_congr ?_ hs.2⟩
      · exact sessionInputs_setRegByte (reg_of_writable_in_session row (rowAt_mem hrow).1 _ hne hw) s _ d
      · exact outputs_eq_iff.mpr ⟨h1, h2, h3, h4, h5, h6, h7, h8⟩

/-! ## The output registers after a derivation (R254) -/

/-- A field of a legal length written out leaves a legal output register. -/
theorem outOk_writeOut_pullField {cap off n : Nat} {lens : List Nat} (b : Buf) (hfit : off + n ≤ 200)
    (hn : n ∈ lens) : (writeOut cap (pullField b off n)).outOk lens := by
  have hlen : (writeOut cap (pullField b off n)).len.toNat = n := by
    rw [writeOut_len, length_pullField b hfit, BitVec.toNat_ofNat, Nat.mod_eq_of_lt (by omega)]
  refine ⟨by rwa [hlen], fun i hi => ?_⟩
  rw [hlen] at hi
  simp only [writeOut_bytes, Fin.getElem_fin, getElem_fill]
  rw [List.getD_eq_getElem?_getD, List.getElem?_eq_none (by rwa [length_pullField b hfit]), Option.getD_none]

/-- A family's outputs are legal when the lengths it reads are (R217, R254). -/
theorem withOutputs_outputsOk {s : State} {fam : Family} (hs : s.outputsOk) (hlen : s.lengthsOk fam) (b : Buf) :
    (s.withOutputs fam b).outputsOk := by
  obtain ⟨h1, h2, h3, h4, h5, h6, h7, h8⟩ := hs
  have hmac {n : Nat} (hm : n = 64 ∨ n = 128 ∨ n = 256) : 0 + n / 8 ≤ 200 ∧ n / 8 ∈ [0, 8, 16, 32] := by
    rcases hm with rfl | rfl | rfl <;> decide
  have hkey {off n : Nat} (hk : n = 128 ∨ n = 256) (hoff : off ≤ 64) : off + n / 8 ≤ 200 ∧ n / 8 ∈ [0, 16, 32] := by
    rcases hk with rfl | rfl <;> simp <;> omega
  cases fam with
  | topc => exact ⟨outOk_writeOut_pullField b (by decide) (by decide), h2, h3, h4, h5, h6, h7, h8⟩
  | f1 =>
    obtain ⟨hfit, hmem⟩ := hmac hlen
    exact ⟨h1, outOk_writeOut_pullField b hfit hmem, h3, h4, h5, h6, h7, h8⟩
  | f1star =>
    obtain ⟨hfit, hmem⟩ := hmac hlen
    exact ⟨h1, h2, outOk_writeOut_pullField b hfit hmem, h4, h5, h6, h7, h8⟩
  | f2345 =>
    obtain ⟨hres, hck, hik⟩ := hlen
    have hr : 0 + s.reslength.toNat / 8 ≤ 200 ∧ s.reslength.toNat / 8 ∈ [0, 4, 8, 16, 32] := by
      rcases hres with h | h | h | h <;> rw [h] <;> decide
    obtain ⟨hc, hcmem⟩ := hkey (off := 32) hck (by decide)
    obtain ⟨hi, himem⟩ := hkey (off := 64) hik (by decide)
    exact ⟨h1, h2, h3, outOk_writeOut_pullField b hr.1 hr.2, outOk_writeOut_pullField b hc hcmem,
      outOk_writeOut_pullField b hi himem, outOk_writeOut_pullField b (by decide) (by decide), h8⟩
  | f5star => exact ⟨h1, h2, h3, h4, h5, h6, h7, outOk_writeOut_pullField b (by decide) (by decide)⟩

theorem runFamily_outputsOk {s : State} {fam : Family} (hs : s.outputsOk) (hlen : s.lengthsOk fam) (inst : Byte) :
    (runFamily fam inst s).outputsOk :=
  withOutputs_outputsOk (s := s.report fam _) hs (by cases fam <;> exact hlen) _

/-! ## Commands -/

theorem outputs_resolveTopc (kbits : Nat) (s : State) : (resolveTopc kbits s).outputs = s.outputs := by
  by_cases h : s.sess = .uninitialized
  · rw [resolveTopc_uninitialized h]; rfl
  · rw [resolveTopc_other h]

theorem topcCache_runFamily (fam : Family) (inst : Byte) (s : State) :
    (runFamily fam inst s).topcCache = s.topcCache := by
  cases fam <;> rfl

theorem lengthsOk_congr {s t : State} (h : t.commandInputs = s.commandInputs) (fam : Family) :
    t.lengthsOk fam ↔ s.lengthsOk fam := by
  simp only [State.commandInputs, Prod.mk.injEq] at h
  obtain ⟨-, ⟨hmac, hres, hck, hik⟩, -⟩ := h
  cases fam <;> simp only [State.lengthsOk, State.macOk, State.keysOk, hmac, hres, hck, hik]

/-- An F-command's prologue leaves the session's TOPc in the cache (R42, R246). -/
theorem topcCache_resolveTopc {s : State} (hs : s.sessionOk) (hsess : s.sess ≠ .none) :
    (resolveTopc (8 * s.k.len.toNat) s).topcCache = s.sessionTopc := by
  obtain ⟨-, hseen, -, hbuilt, hready⟩ := hs
  cases hc : s.sess with
  | none => exact absurd hc hsess
  | topcResolved => exact absurd hc hseen
  | uninitialized =>
    rw [resolveTopc_uninitialized hc, sessionTopc_derived (by rw [hbuilt hc]; decide)]
    rfl
  | ready => rw [resolveTopc_other (by rw [hc]; decide), hready hc]

/-- A session opened on legal inputs: READY caches its TOPc, UNINITIALIZED still has no TOPc (R51, R241). -/
theorem openSession_sessionOk {s : State} (hs : s.sessionOk) (hnone : s.sess = .none) (hin : s.inputsOk)
    (hsrc : s.topcSourceOk) : (openSession s).sessionOk := by
  have hzero := hs.1 (.inl hnone)
  by_cases h32 : s.topcIn.len.toNat = 32
  · rw [openSession_supplied h32]
    exact sessionOk_of_ready rfl ⟨hin, hsrc⟩ (sessionTopc_supplied h32).symm
  · rw [openSession_derived h32]
    exact sessionOk_of_uninitialized rfl hzero ⟨hin, hsrc⟩ (hsrc.resolve_left h32).1

theorem FamilySucceeds.inv {fam : Family} {s t : State} (h : FamilySucceeds fam s t) (hs : s.Inv) : t.Inv := by
  have hin : t.sessionInputs = s.sessionInputs := sessionInputs_of_commandInputs h.commandInputs
  obtain ⟨hsess, -, hlen, -, inst, -, rfl⟩ := h
  obtain ⟨hsession, houtputs⟩ := hs
  have ⟨_, _, hlegal, _, _⟩ := hsession
  refine ⟨sessionOk_of_ready rfl ((inputsOk_congr hin).mpr (hlegal hsess)) ?_, ?_⟩
  · rw [sessionTopc_congr hin, State.fEnd_topcCache, topcCache_runFamily, topcCache_resolveTopc hsession hsess]
  · exact runFamily_outputsOk (outputsOk_congr (outputs_resolveTopc _ s) houtputs)
      ((lengthsOk_congr (commandInputs_resolveTopc _ s) fam).mpr hlen) inst

/-- The invariant says nothing of STATE. -/
theorem stateBuf_inv {s : State} (hs : s.Inv) (b : Buf) : (State.done { s with stateBuf := b }).Inv :=
  inv_congr hs rfl rfl rfl rfl

/-- COMPUTE_TOPC touches no session register (R245). -/
theorem computeTopc_inv {s : State} (hs : s.Inv) (inst : Byte) : (runFamily .topc inst s).done.Inv :=
  ⟨sessionOk_congr hs.1 (sess_runFamily .topc inst s) (topcCache_runFamily .topc inst s)
      fun _ => sessionInputs_of_commandInputs (commandInputs_runFamily .topc inst s),
    runFamily_outputsOk (fam := .topc) hs.2 trivial inst⟩

theorem outputs_openSession (s : State) : (openSession s).outputs = s.outputs := by
  by_cases h : s.topcIn.len.toNat = 32
  · rw [openSession_supplied h]; rfl
  · rw [openSession_derived h]; rfl

/-- A command keeps the invariant, whether it fails or succeeds. -/
theorem exec_inv {i : Instr} {s t : State} (hs : s.Inv) (h : exec i s = .next t) : t.Inv := by
  rcases exec_cases h with ⟨e, -, rfl⟩ | h
  · exact inv_congr hs rfl rfl rfl rfl
  cases i with
  | nop => obtain rfl := h; exact inv_congr hs rfl rfl rfl rfl
  | stateInit => obtain rfl := h; exact stateBuf_inv hs _
  | permute len => obtain ⟨-, rfl⟩ := h; exact stateBuf_inv hs _
  | pushField off len => obtain ⟨-, rfl⟩ := h; exact stateBuf_inv hs _
  | pullField off len => obtain ⟨-, rfl⟩ := h; exact inv_congr hs rfl rfl rfl rfl
  | selectInst sel => obtain ⟨fam, v, -, -, rfl⟩ := h; exact inv_congr hs rfl rfl rfl rfl
  | sessionInit =>
    obtain ⟨hnone, hin, hsrc, rfl⟩ := h
    exact ⟨openSession_sessionOk hs.1 hnone hin hsrc, outputsOk_congr (outputs_openSession s) hs.2⟩
  | sessionClose => obtain rfl := h; exact ⟨sessionOk_of_none rfl rfl, hs.2⟩
  | computeTopc => obtain ⟨kbits, -, rfl⟩ := h; exact computeTopc_inv hs (keyFlag kbits)
  | f1 | f1star | f2345 | f5star => exact FamilySucceeds.inv h hs

/-! ## Steps -/

/-- The engine's turn keeps the invariant, on a legal word and on an illegal one. -/
theorem issue_inv {s t : State} (hs : s.Inv) (h : issue s = .next t) : t.Inv := by
  cases hd : decode s.commandWord with
  | ok i => exact exec_inv hs (issue_ok hd ▸ h)
  | error e =>
    rw [issue_error hd] at h
    cases h
    exact inv_congr hs rfl rfl rfl rfl

/-- Every host transaction keeps the invariant. -/
theorem transact_inv {r : HostReq} {s t : State} (hs : s.Inv) (h : transact r s = .next t) : t.Inv := by
  have hreset : s.resetBlock.Inv := inv_congr (s := .reset) resetMeetsInv rfl rfl rfl rfl
  cases r with
  | read a => cases h; exact inv_congr hs rfl rfl rfl rfl
  | write a d =>
    have hw := writeByte_inv hs a d
    simp only [transact] at h
    split at h
    · exact issue_inv hw h
    · cases h; exact hw
  | reset => cases h; exact hreset
  | interruptedCommand d => cases h; exact hreset

/-- Settles O52, transaction by transaction. -/
theorem invKeptByEveryStep : Obligations.InvKeptByEveryStep := by
  unfold Obligations.InvKeptByEveryStep
  intro s t hs h
  cases hp : s.port with
  | nil =>
    rw [step_idle hp] at h
    cases h
    exact hs
  | cons r rest =>
    rw [step_transact hp hs.1.2.1] at h
    exact transact_inv (s := { s with port := rest }) (inv_congr hs rfl rfl rfl rfl) h

end Sys2Proof.Machine
end

section
/-! PROOFS. What no command reads: the debug port, the bytes of K past K_LEN, and for the driver commands STATE. -/

namespace Sys2Proof.Machine

/-! ## Changes that commands do not see -/

/-- The state with STATE changed by `buf`, the bytes of K by `key`, and, when `dbg` is false, DBG_EN and the event
history cleared. -/
def State.masked (buf : Buf → Buf) (key : FieldReg 32 → Vector Byte 32) (dbg : Bool) (s : State) : State :=
  { s with
    stateBuf := buf s.stateBuf
    k := ⟨key s.k, s.k.len⟩
    dbgEn := if dbg then s.dbgEn else false
    dbg := if dbg then s.dbg else [] }

/-- `u` changes STATE by `buf`, and for the rest only the debug port and the bytes of K past K_LEN. -/
def Unread (buf : Buf → Buf) (u : State → State) : Prop :=
  ∃ (key : FieldReg 32 → Vector Byte 32) (dbg : Bool),
    (∀ k : FieldReg 32, firstBytes (key k) k.len.toNat = firstBytes k.bytes k.len.toNat) ∧
      u = State.masked buf key dbg

/-- The commands that read or write STATE (R154, R191 to R193). -/
def usesBuffer : Instr → Bool
  | .stateInit | .permute _ | .pushField _ _ | .pullField _ _ => true
  | _ => false

section
variable {buf : Buf → Buf} {u : State → State}

theorem Unread.raise (hu : Unread buf u) (e : Err) (s : State) : (u s).raise e = u (s.raise e) := by
  obtain ⟨key, dbg, -, rfl⟩ := hu
  rfl

theorem Unread.fEnd (hu : Unread buf u) (s : State) : (u s).fEnd = u s.fEnd := by
  obtain ⟨key, dbg, -, rfl⟩ := hu
  rfl

theorem Unread.done (hu : Unread buf u) (s : State) : (u s).done = u s.done := by
  obtain ⟨key, dbg, -, rfl⟩ := hu
  rfl

/-- The assembled block has K's value alone of what changes (R244, R247). -/
theorem Unread.familyBlock (hu : Unread buf u) (fam : Family) (inst : Byte) (s : State) :
    familyBlock fam inst (u s) = familyBlock fam inst s := by
  obtain ⟨key, dbg, hkey, rfl⟩ := hu
  have hvalue : (State.masked buf key dbg s).keyValue = s.keyValue := hkey s.k
  cases fam <;> simp only [Machine.familyBlock, macBlock, randBlock, hvalue] <;> rfl

theorem Unread.report (hu : Unread buf u) (label : Family) (b : Buf) (s : State) :
    (u s).report label b = u (s.report label b) := by
  obtain ⟨key, dbg, -, rfl⟩ := hu
  cases dbg <;> rfl

theorem Unread.runFamily (hu : Unread buf u) (fam : Family) (inst : Byte) (s : State) :
    runFamily fam inst (u s) = u (runFamily fam inst s) := by
  have hiter (b : Buf) : (u s).iterated b = s.iterated b := by
    obtain ⟨key, dbg, -, rfl⟩ := hu
    rfl
  rw [Machine.runFamily, hu.familyBlock, hu.report, hiter]
  obtain ⟨key, dbg, -, rfl⟩ := hu
  cases fam <;> rfl

theorem Unread.resolveTopc (hu : Unread buf u) (kbits : Nat) (s : State) :
    resolveTopc kbits (u s) = u (resolveTopc kbits s) := by
  have hblock : topcBlock kbits (u s) = topcBlock kbits s := hu.familyBlock .topc (keyFlag kbits) s
  have hsess : (u s).sess = s.sess := by
    obtain ⟨key, dbg, -, rfl⟩ := hu
    rfl
  by_cases h : s.sess = .uninitialized
  · rw [resolveTopc_uninitialized h, resolveTopc_uninitialized (hsess.trans h), hblock, hu.report]
    obtain ⟨key, dbg, -, rfl⟩ := hu
    rfl
  · rw [resolveTopc_other h, resolveTopc_other fun hc => h (hsess.symm.trans hc)]

/-- The prologue's checks read lengths alone, so it ends the same way on the changed state (R246). -/
theorem Unread.fBegin (hu : Unread buf u) (fam : Family) (s : State) :
    fBegin fam (u s) = (fBegin fam s).map (Prod.map id u) := by
  have hinst (kbits : Nat) : instByte fam kbits (u s) = instByte fam kbits s := by
    obtain ⟨key, dbg, -, rfl⟩ := hu
    cases fam <;> rfl
  have htopc := hu.resolveTopc (8 * s.k.len.toNat) s
  have hlens : (u s).sess = s.sess ∧ ((u s).keyOk ↔ s.keyOk) ∧ ((u s).lengthsOk fam ↔ s.lengthsOk fam) ∧
      (packedOk fam (u s) ↔ packedOk fam s) ∧ (u s).k.len = s.k.len := by
    obtain ⟨key, dbg, -, rfl⟩ := hu
    exact ⟨rfl, Iff.rfl, by cases fam <;> exact Iff.rfl, Iff.rfl, rfl⟩
  obtain ⟨hsess, hkey, hlen, hpacked, hklen⟩ := hlens
  by_cases hn : s.sess = .none
  · rw [fBegin_none hn, fBegin_none (hsess.trans hn)]
    rfl
  · have hn' : (u s).sess ≠ .none := fun h => hn (hsess.symm.trans h)
    by_cases hc : s.keyOk ∧ s.lengthsOk fam ∧ packedOk fam s
    · obtain ⟨hk, hl, hp⟩ := hc
      obtain ⟨v, hv, hbegin⟩ := fBegin_ok hn hk hl hp
      obtain ⟨v', hv', hbegin'⟩ := fBegin_ok hn' (hkey.mpr hk) (hlen.mpr hl) (hpacked.mpr hp)
      rw [hklen, hinst, hv] at hv'
      cases hv'
      rw [hbegin, hbegin', hklen, htopc]
      rfl
    · rw [fBegin_error hn hc, fBegin_error hn' (by rwa [hkey, hlen, hpacked])]
      rfl

/-- A check that ends alike, with a success that commutes with the change, commutes with it. -/
theorem Unread.endWith (hu : Unread buf u) {α : Type} {s t : State} {f f' : α → State} (g : α → α) {c : Except Err α}
    (hf : ∀ a, f' (g a) = u (f a)) (h : s.endWith f c = .next t) : (u s).endWith f' (c.map g) = .next (u t) := by
  rcases endWith_cases s f c with ⟨e, rfl, hnext⟩ | ⟨a, rfl, hnext⟩ <;> rw [hnext] at h <;> cases h
  · exact congrArg _ (hu.raise e s)
  · exact congrArg _ (hf a)

/-- The case of checks that are the same on both states. -/
theorem Unread.endWith_same (hu : Unread buf u) {α : Type} {s t : State} {f f' : α → State} {c : Except Err α}
    (hf : ∀ a, f' a = u (f a)) (h : s.endWith f c = .next t) : (u s).endWith f' c = .next (u t) := by
  have hid : c.map id = c := by cases c <;> rfl
  exact hid ▸ hu.endWith id hf h

theorem Unread.exec_family (hu : Unread buf u) {fam : Family} {i : Instr} (hcmd : Family.command fam = some i)
    {s t : State} (h : exec i s = .next t) : exec i (u s) = .next (u t) := by
  rw [Machine.exec_family hcmd] at h ⊢
  rw [hu.fBegin]
  exact hu.endWith _ (fun p => by rw [← hu.fEnd, ← hu.runFamily]; rfl) h

theorem Unread.openSession (hu : Unread buf u) (s : State) : openSession (u s) = u (openSession s) := by
  obtain ⟨key, dbg, -, rfl⟩ := hu
  by_cases h : s.topcIn.len.toNat = 32
  · rw [openSession_supplied h]; exact openSession_supplied h
  · rw [openSession_derived h]; exact openSession_derived h

/-- A choice between two next states that commutes with the change. -/
theorem next_ite {c : Prop} [Decidable c] {a b t : State} (u : State → State)
    (h : (if c then .next a else .next b : Host.Outcome State Fault Refusal) = .next t) :
    (if c then .next (u a) else .next (u b) : Host.Outcome State Fault Refusal) = .next (u t) := by
  rcases next_of_ite h with ⟨hc, rfl⟩ | ⟨hc, rfl⟩
  · exact if_pos hc
  · exact if_neg hc

/-- A command that uses STATE sees no other change. -/
theorem Unread.exec_of_usesBuffer (hu : Unread id u) {i : Instr} (hi : usesBuffer i = true) {s t : State}
    (h : exec i s = .next t) : exec i (u s) = .next (u t) := by
  obtain ⟨key, dbg, -, rfl⟩ := hu
  cases i with
  | stateInit => cases h; rfl
  | permute len => exact next_ite (State.masked id key dbg) h
  | pushField off len => exact next_ite (State.masked id key dbg) h
  | pullField off len => exact next_ite (State.masked id key dbg) h
  | _ => cases hi

/-- A command that does not use STATE takes the changed state to the changed result. -/
theorem Unread.exec_of_not_usesBuffer (hu : Unread buf u) {i : Instr} (hi : usesBuffer i = false) {s t : State}
    (h : exec i s = .next t) : exec i (u s) = .next (u t) := by
  cases i with
  | nop => cases h; exact congrArg _ (hu.done s)
  | selectInst sel =>
    cases hfam : familyOfCode sel with
    | none =>
      rw [exec_selectInst_none hfam] at h ⊢
      cases h
      exact congrArg _ (hu.raise _ s)
    | some fam =>
      have hchecks : resolveInst fam (u s) = resolveInst fam s := by
        obtain ⟨key, dbg, -, rfl⟩ := hu
        cases fam <;> rfl
      rw [exec_selectInst_some hfam] at h ⊢
      rw [hchecks]
      refine hu.endWith_same (fun v => ?_) h
      obtain ⟨key, dbg, -, rfl⟩ := hu
      rfl
  | sessionInit =>
    have hchecks : sessionChecks (u s) = sessionChecks s := by
      obtain ⟨key, dbg, -, rfl⟩ := hu
      rfl
    change (u s).endWith _ (sessionChecks (u s)) = _
    rw [hchecks]
    exact hu.endWith_same (fun _ => by rw [hu.openSession, hu.done]) h
  | sessionClose =>
    cases h
    obtain ⟨key, dbg, -, rfl⟩ := hu
    rfl
  | computeTopc =>
    have hchecks : topcChecks (u s) = topcChecks s := by
      obtain ⟨key, dbg, -, rfl⟩ := hu
      rfl
    rw [exec_computeTopc] at h ⊢
    rw [hchecks]
    exact hu.endWith_same (fun _ => by rw [hu.runFamily, hu.done]) h
  | f1 => exact hu.exec_family (fam := .f1) rfl h
  | f1star => exact hu.exec_family (fam := .f1star) rfl h
  | f2345 => exact hu.exec_family (fam := .f2345) rfl h
  | f5star => exact hu.exec_family (fam := .f5star) rfl h
  | _ => cases hi

/-- With STATE kept, every command takes the changed state to the changed result. -/
theorem Unread.exec (hu : Unread id u) {i : Instr} {s t : State} (h : exec i s = .next t) :
    Machine.exec i (u s) = .next (u t) := by
  cases hi : usesBuffer i with
  | true => exact hu.exec_of_usesBuffer hi h
  | false => exact hu.exec_of_not_usesBuffer hi h

/-- So two states that the change makes one go to results that it makes one. -/
theorem Unread.exec_congr (hu : Unread id u) {i : Instr} {s s' t t' : State} (hs : u s' = u s)
    (h : Machine.exec i s = .next t) (h' : Machine.exec i s' = .next t') : u t' = u t := by
  have heq := hu.exec h'
  rw [hs, hu.exec h] at heq
  exact (Host.Outcome.next.inj heq).symm

end

/-! ## The statements -/

/-- Every command answers a next state (R301, R315). -/
theorem exec_completes (i : Instr) (s : State) : ∃ t, exec i s = .next t := by
  have hend {α : Type} (f : α → State) (c : Except Err α) : ∃ t, s.endWith f c = .next t := by
    cases c <;> exact ⟨_, rfl⟩
  have hite {c : Prop} [Decidable c] (a b : State) :
      ∃ t, (if c then .next a else .next b : Host.Outcome State Fault Refusal) = .next t := by
    split <;> exact ⟨_, rfl⟩
  cases i with
  | nop | stateInit | sessionClose => exact ⟨_, rfl⟩
  | permute len => exact hite _ _
  | pushField off len => exact hite _ _
  | pullField off len => exact hite _ _
  | selectInst sel =>
    rcases exec_selectInst_cases sel s with ⟨-, hexec⟩ | ⟨fam, -, hexec⟩
    · exact ⟨_, hexec⟩
    · exact hexec ▸ hend _ _
  | sessionInit | computeTopc | f1 | f1star | f2345 | f5star => exact hend _ _

/-- Settles O54: with the debug port cleared the two states are one, and so are the two results. -/
theorem debugPortHasNoEffect : Obligations.DebugPortHasNoEffect := by
  unfold Obligations.DebugPortHasNoEffect
  intro i s en l
  have hu : Unread id (State.masked id FieldReg.bytes false) := ⟨_, _, fun _ => rfl, rfl⟩
  obtain ⟨t, ht⟩ := exec_completes i s
  let s' : State := { s with dbgEn := en, dbg := l }
  obtain ⟨t', ht'⟩ := exec_completes i s'
  have hen : t'.dbgEn = en := dbgEn_of_commandInputs (exec_commandInputs ht')
  have hback : t' = { t with dbgEn := t'.dbgEn, dbg := t'.dbg } :=
    congrArg (fun x : State => { x with dbgEn := t'.dbgEn, dbg := t'.dbg })
      (hu.exec_congr (s := s) (s' := s') rfl ht ht')
  rw [hen] at hback
  exact ⟨t, t'.dbg, ht, ht'.trans (congrArg _ hback)⟩

/-- The bytes that a length counts are those of the register cut off at that length. -/
theorem firstBytes_fill {cap : Nat} (v : Vector Byte cap) (n : Nat) :
    firstBytes (fill cap (firstBytes v n)) n = firstBytes v n := by
  apply List.ext_getElem
  · simp
  · intro i h1 h2
    have hi : i < n ∧ i < cap := by simpa using h1
    simp [firstBytes, hi]

/-- K's bytes with those past K_LEN cleared. -/
def keyCut (k : FieldReg 32) : Vector Byte 32 := fill 32 (firstBytes k.bytes k.len.toNat)

/-- Settles O55: cut off at K_LEN the two states are one, and so are the two results. -/
theorem bytesPastKeyLengthAreUnread : Obligations.BytesPastKeyLengthAreUnread := by
  unfold Obligations.BytesPastKeyLengthAreUnread
  intro i s kb hkb
  let s' : State := { s with k := { s.k with bytes := kb } }
  have hu : Unread id (State.masked id keyCut true) := ⟨_, _, fun k => firstBytes_fill k.bytes k.len.toNat, rfl⟩
  have hs : State.masked id keyCut true s' = State.masked id keyCut true s :=
    congrArg (fun v => { s with k := ⟨fill 32 v, s.k.len⟩ }) hkb
  obtain ⟨t, ht⟩ := exec_completes i s
  obtain ⟨t', ht'⟩ := exec_completes i s'
  have hlen : t.k.len = s.k.len := congrArg FieldReg.len (k_of_commandInputs (exec_commandInputs ht))
  have hk' : t'.k = ⟨kb, s.k.len⟩ := k_of_commandInputs (exec_commandInputs ht')
  have hback : t' = { t with k := t'.k } :=
    congrArg (fun x : State => { x with k := t'.k }) (hu.exec_congr hs ht ht')
  rw [hk', ← hlen] at hback
  exact ⟨t, ht, ht'.trans (congrArg _ hback)⟩

/-- Settles O56. That such a command keeps STATE is the case of a change of STATE to what it is. -/
theorem driverCommandsIgnoreState : Obligations.DriverCommandsIgnoreState := by
  unfold Obligations.DriverCommandsIgnoreState
  intro i s b hi
  have hbuf : usesBuffer i = false := by rcases hi with rfl | rfl | rfl | rfl | rfl | rfl | rfl <;> rfl
  have hset (b : Buf) : Unread (fun _ => b) (fun s => { s with stateBuf := b }) :=
    ⟨FieldReg.bytes, true, fun _ => rfl, rfl⟩
  obtain ⟨t, ht⟩ := exec_completes i s
  have hsame : exec i s = .next { t with stateBuf := s.stateBuf } :=
    (hset s.stateBuf).exec_of_not_usesBuffer hbuf ht
  have hkeep := Host.Outcome.next.inj (ht.symm.trans hsame)
  exact ⟨t, ht, (congrArg State.stateBuf hkeep :), (hset b).exec_of_not_usesBuffer hbuf ht⟩

end Sys2Proof.Machine
end

section
/-! PROOFS. The register space as memory: reads without side effects, repeated writes, and the little-endian option
registers and lanes. -/

namespace Sys2Proof.Machine

/-! ## Reads and repeated writes (R82, R83, R91) -/

/-- The port is no register: what a read finds does not depend on it. -/
theorem readByte_port (s : State) (rest : List HostReq) (a : Addr) :
    State.readByte { s with port := rest } a = s.readByte a := rfl

/-- Settles O7. -/
theorem readReturnsByteAndChangesNothing : Obligations.ReadReturnsByteAndChangesNothing := by
  unfold Obligations.ReadReturnsByteAndChangesNothing
  intro s a rest hp hs
  rw [step_transact hp hs, transact, readByte_port]

theorem sess_setRegByte (s : State) (r : Reg) (i : Nat) (d : Byte) : (s.setRegByte r i d).sess = s.sess :=
  (setRegByte_keeps s r i d).1

/-- Settles O11: a write that takes effect leaves its register writable, and then stores the same again. -/
theorem repeatedWriteStoresTheSame : Obligations.RepeatedWriteStoresTheSame := by
  unfold Obligations.RepeatedWriteStoresTheSame
  intro s a d
  cases hrow : rowAt a.toNat with
  | none => simp only [writeByte_reserved hrow]
  | some row =>
    cases hw : writable row.access s.sess with
    | false => simp only [writeByte_row_off hrow hw]
    | true =>
      rw [writeByte_row_on hrow hw, writeByte_row_on hrow (by rwa [sess_setRegByte]), setRegByte_twice]

/-! ## The option registers (R86) -/

/-- What a host write stores at the address of byte `i` of a row's register (R83, R92). -/
theorem writeByte_regAddr {row : RegRow} (hrow : row ∈ regMap) {i : Nat} (hi : i < row.bytes) (h : i < 200) {s : State}
    (hw : writable row.access s.sess = true) (d : Byte) :
    s.writeByte (regAddr row.base i) d = s.setRegByte row.reg i d := by
  obtain ⟨hat, hoff⟩ := rowAt_regAddr row hrow ⟨i, h⟩ hi
  rw [writeByte_row_on hat hw, hoff]

section
variable {base : Nat} {reg : Reg} (hrow : ⟨base, reg, 2, .rwL⟩ ∈ regMap) (s : State)
include hrow

/-- A register of two bytes, kept as the 16-bit `v`, is read low byte first. -/
theorem readByte_half {v : Half} (hv : ∀ i, s.regByte reg i = halfByte v i) :
    s.readByte (regAddr base 0) = v.extractLsb' 0 8 ∧ s.readByte (regAddr base 1) = v.extractLsb' 8 8 :=
  ⟨(readByte_regAddr hrow (i := 0) Nat.two_pos (by decide) s).trans (hv 0),
    (readByte_regAddr hrow (i := 1) Nat.one_lt_two (by decide) s).trans (hv 1)⟩

/-- With no session the two bytes of `v`, written low then high to a register that `set` sets, set it to `v`. -/
theorem writeByte_half (hsess : s.sess = .none) {set : Half → State} {w : Half}
    (hset : ∀ lo hi, (s.setRegByte reg 0 lo).setRegByte reg 1 hi = set (setHalfByte (setHalfByte w 0 lo) 1 hi))
    (v : Half) :
    (s.writeByte (regAddr base 0) (v.extractLsb' 0 8)).writeByte (regAddr base 1) (v.extractLsb' 8 8) = set v := by
  have hw {t : State} (ht : t.sess = .none) : writable .rwL t.sess = true := by rw [ht]; rfl
  rw [writeByte_regAddr hrow (i := 0) Nat.two_pos (by decide) (hw hsess),
    writeByte_regAddr hrow (i := 1) Nat.one_lt_two (by decide) (hw (by rw [sess_setRegByte, hsess])), hset,
    setHalfByte_both]

end

/-- Settles O12, a row of the map a register. -/
theorem optionRegistersAreLittleEndian : Obligations.OptionRegistersAreLittleEndian := by
  unfold Obligations.OptionRegistersAreLittleEndian
  refine ⟨fun s => ?_, fun s v hs => ⟨?_, ?_, ?_, ?_, ?_⟩⟩
  · obtain ⟨hklo, hkhi⟩ := readByte_half (base := 0x188) (reg := .KLENGTH) (by decide) s fun _ => rfl
    obtain ⟨hmaclo, hmachi⟩ := readByte_half (base := 0x18A) (reg := .MACLENGTH) (by decide) s fun _ => rfl
    obtain ⟨hreslo, hreshi⟩ := readByte_half (base := 0x18C) (reg := .RESLENGTH) (by decide) s fun _ => rfl
    obtain ⟨hcklo, hckhi⟩ := readByte_half (base := 0x18E) (reg := .CKLENGTH) (by decide) s fun _ => rfl
    obtain ⟨hiklo, hikhi⟩ := readByte_half (base := 0x190) (reg := .IKLENGTH) (by decide) s fun _ => rfl
    exact ⟨hklo, hkhi, hmaclo, hmachi, hreslo, hreshi, hcklo, hckhi, hiklo, hikhi⟩
  · exact writeByte_half (base := 0x188) (reg := .KLENGTH) (by decide) s hs (set := ({ s with klength := · }))
      (fun _ _ => rfl) v
  · exact writeByte_half (base := 0x18A) (reg := .MACLENGTH) (by decide) s hs (set := ({ s with maclength := · }))
      (fun _ _ => rfl) v
  · exact writeByte_half (base := 0x18C) (reg := .RESLENGTH) (by decide) s hs (set := ({ s with reslength := · }))
      (fun _ _ => rfl) v
  · exact writeByte_half (base := 0x18E) (reg := .CKLENGTH) (by decide) s hs (set := ({ s with cklength := · }))
      (fun _ _ => rfl) v
  · exact writeByte_half (base := 0x190) (reg := .IKLENGTH) (by decide) s hs (set := ({ s with iklength := · }))
      (fun _ _ => rfl) v

end Sys2Proof.Machine
end

section
/-! PROOFS. The little-endian lanes, and storing as the inverse of loading. -/

namespace Sys2Proof.Machine

/-- The first `n` bytes of lane `i`, joined as `lane` joins its eight. -/
def lanePrefix (b : Buf) (i : Nat) : Nat → Lane
  | 0 => 0
  | n + 1 => lanePrefix b i n ||| laneByte b (8 * i + n) n

theorem lane_eq_lanePrefix (b : Buf) (i : Nat) : lane b i = lanePrefix b i 8 := by
  simp [lane, lanePrefix]

/-- A byte joined above the bits in use is added (R84). -/
theorem toNat_or_laneByte {x : Lane} {k : Nat} (hk : k < 8) (hx : x.toNat < 2 ^ (8 * k)) (b : Buf) (p : Nat) :
    (x ||| laneByte b p k).toNat = x.toNat + (byteAt b p).toNat * 2 ^ (8 * k) := by
  have hfit : (byteAt b p).toNat * 2 ^ (8 * k) < 2 ^ 64 :=
    calc (byteAt b p).toNat * 2 ^ (8 * k) < 2 ^ 8 * 2 ^ (8 * k) :=
          Nat.mul_lt_mul_of_pos_right (byteAt b p).isLt (by positivity)
      _ = 2 ^ (8 * k + 8) := by rw [Nat.pow_add, Nat.mul_comm]
      _ ≤ 2 ^ 64 := Nat.pow_le_pow_right (by decide) (by omega)
  have hbyte : (laneByte b p k).toNat = 2 ^ (8 * k) * (byteAt b p).toNat := by
    rw [laneByte, BitVec.toNat_shiftLeft, BitVec.toNat_setWidth_of_le (by decide), Nat.shiftLeft_eq,
      Nat.mod_eq_of_lt hfit, Nat.mul_comm]
  rw [BitVec.toNat_or, hbyte, Nat.or_comm, ← Nat.two_pow_add_eq_or_of_lt hx, Nat.add_comm, Nat.mul_comm]

/-- The first `n` bytes of a lane are their little-endian value, below `2 ^ (8 n)` (R84). -/
theorem toNat_lanePrefix (b : Buf) (i : Nat) {n : Nat} (hn : n ≤ 8) :
    (lanePrefix b i n).toNat = ((List.range n).map fun k => (byteAt b (8 * i + k)).toNat * 2 ^ (8 * k)).sum ∧
      (lanePrefix b i n).toNat < 2 ^ (8 * n) := by
  induction n with
  | zero => exact ⟨rfl, by simp [lanePrefix]⟩
  | succ n ih =>
    obtain ⟨hsum, hlt⟩ := ih (by omega)
    have hor := toNat_or_laneByte hn hlt b (8 * i + n)
    rw [lanePrefix, hor]
    refine ⟨by simp [List.range_succ, hsum], ?_⟩
    have hbyte := (byteAt b (8 * i + n)).isLt
    calc (lanePrefix b i n).toNat + (byteAt b (8 * i + n)).toNat * 2 ^ (8 * n)
        < ((byteAt b (8 * i + n)).toNat + 1) * 2 ^ (8 * n) := by rw [Nat.add_mul]; omega
      _ ≤ 2 ^ 8 * 2 ^ (8 * n) := Nat.mul_le_mul_right _ hbyte
      _ = 2 ^ (8 * (n + 1)) := by rw [Nat.mul_succ, Nat.pow_add, Nat.mul_comm]

/-- Bit `z` of the first `n` bytes of a lane: a bit of byte `z / 8`, if that is one of them. -/
theorem getLsbD_lanePrefix (b : Buf) (i n : Nat) {z : Nat} (hz : z < 64) :
    (lanePrefix b i n).getLsbD z = (decide (z / 8 < n) && (byteAt b (8 * i + z / 8)).getLsbD (z % 8)) := by
  induction n with
  | zero => simp [lanePrefix]
  | succ n ih =>
    rw [lanePrefix, BitVec.getLsbD_or, ih, getLsbD_laneByte b _ hz]
    rcases Nat.lt_trichotomy (z / 8) n with h | h | h
    · simp [h, h.ne', show z / 8 < n + 1 by omega]
    · simp [h]
    · simp [h.ne, show ¬ z / 8 < n by omega, show ¬ z / 8 < n + 1 by omega]

/-- Bit `z` of lane `i` is bit `z mod 8` of byte `8 i + z div 8` (R141). -/
theorem getLsbD_lane (b : Buf) (i : Nat) {z : Nat} (hz : z < 64) :
    (lane b i).getLsbD z = (byteAt b (8 * i + z / 8)).getLsbD (z % 8) := by
  rw [lane_eq_lanePrefix, getLsbD_lanePrefix b i 8 hz, decide_eq_true (show z / 8 < 8 by omega), Bool.true_and]

/-- The bytes of loaded lanes are the buffer's (R84, R149). -/
theorem storeLanes_loadLanes (b : Buf) : storeLanes (loadLanes b) = b := by
  ext p hp j hj
  have hpos : 8 * (p / 8) + (8 * (p % 8) + j) / 8 = p ∧ (8 * (p % 8) + j) % 8 = j := by omega
  rw [getElem_storeLanes _ hp, getElem_loadLanes]
  simp only [← BitVec.getLsbD_eq_getElem]
  rw [BitVec.getLsbD_extractLsb', decide_eq_true hj, Bool.true_and, getLsbD_lane b _ (by omega), hpos.1, hpos.2,
    byteAt_of_lt b hp]

/-- The lanes of stored lanes are those lanes (R84, R149). -/
theorem loadLanes_storeLanes (a : Lanes) : loadLanes (storeLanes a) = a := by
  ext i hi z hz
  have hpos : (8 * i + z / 8) / 8 = i ∧ 8 * ((8 * i + z / 8) % 8) + z % 8 = z := by omega
  rw [getElem_loadLanes _ hi]
  simp only [← BitVec.getLsbD_eq_getElem]
  rw [getLsbD_lane _ _ hz, byteAt_of_lt _ (by omega), getElem_storeLanes _ (by omega), BitVec.getLsbD_extractLsb',
    decide_eq_true (by omega), Bool.true_and, hpos.2]
  simp only [hpos.1]

/-- Settles O16. -/
theorem lanesAreLittleEndian : Obligations.LanesAreLittleEndian := by
  unfold Obligations.LanesAreLittleEndian
  refine ⟨fun b i _ => ?_, storeLanes_loadLanes, loadLanes_storeLanes⟩
  rw [lane_eq_lanePrefix]
  exact (toNat_lanePrefix b i le_rfl).1

end Sys2Proof.Machine
end

section
/-! PROOFS. The first F-command of a session built from TOP. -/

namespace Sys2Proof.Machine

/-- A derivation neither reads nor writes SESS. -/
theorem runFamily_withSess (fam : Family) (inst : Byte) (s : State) (c : Sess) :
    runFamily fam inst { s with sess := c } = { runFamily fam inst s with sess := c } := by
  cases fam <;> rfl

/-- On an UNINITIALIZED session the prologue leaves the READY session's state but for SESS (R246). -/
theorem resolveTopc_eq_topcResolved {s : State} (h : s.sess = .uninitialized) :
    resolveTopc (8 * s.k.len.toNat) s = { s.topcResolved with sess := .topcResolved } :=
  resolveTopc_uninitialized h _

/-- An F-command on a session with legal inputs: its prologue's byte and TOPc, then its family's derivation (R246). -/
theorem exec_family_ok {fam : Family} {i : Instr} (hcmd : Family.command fam = some i) {s : State}
    (hsess : s.sess ≠ .none) (hin : s.inputsOk) (hlen : s.lengthsOk fam) :
    ∃ inst, instByte fam (8 * s.k.len.toNat) s = .ok inst ∧
      exec i s = .next (runFamily fam inst (resolveTopc (8 * s.k.len.toNat) s)).fEnd := by
  obtain ⟨hkey, hrand, hsqn, hamf, -⟩ := hin
  obtain ⟨inst, hinst, hbegin⟩ := fBegin_ok hsess hkey hlen ⟨hrand, fun _ => ⟨hsqn, hamf⟩⟩
  exact ⟨inst, hinst, by rw [exec_family hcmd, hbegin]; rfl⟩

/-- Settles O43: both sessions derive from states that differ in SESS alone, and both end READY. -/
theorem firstFCommandDerivesTopc : Obligations.FirstFCommandDerivesTopc := by
  unfold Obligations.FirstFCommandDerivesTopc
  intro s fam i hcmd hsess hin hlen
  have hready : s.topcResolved.sess = .ready := rfl
  have hlen' : s.topcResolved.lengthsOk fam := (lengthsOk_congr (s := s) rfl fam).mpr hlen
  have hsame : instByte fam (8 * s.k.len.toNat) s.topcResolved = instByte fam (8 * s.k.len.toNat) s := by
    cases fam <;> rfl
  obtain ⟨inst, hinst, hexec⟩ := exec_family_ok hcmd (by rw [hsess]; decide) hin hlen
  obtain ⟨inst', hinst', hexec'⟩ := exec_family_ok (s := s.topcResolved) hcmd (by rw [hready]; decide) hin hlen'
  obtain rfl : inst = inst' := Except.ok.inj (hinst.symm.trans (hsame.symm.trans hinst'))
  rw [resolveTopc_eq_topcResolved hsess, runFamily_withSess] at hexec
  rw [resolveTopc_other (by rw [hready]; decide)] at hexec'
  exact ⟨_, hexec, hexec', topcCache_runFamily fam inst s.topcResolved, rfl, rfl⟩

end Sys2Proof.Machine
end

section
/-! PROOFS. The encoding: the decoder by its table and the encoder undo each other, and the words that decode to no
command are those of R115. -/

namespace Sys2Proof

open Machine

/-! ## The decoder by its table (R111, R113) -/

/-- What a decoder's answer to a word of these fields must be: a well-formed command whose word it is, or an error for a
word of R115. -/
def DecodedAs (op a0 a1 : Byte) : Except DecodeError Instr → Prop
  | .ok i => i.wellFormed = true ∧ encode i = cmdWord op a0 a1
  | .error _ => illegalWord op.toNat a0.toNat a1.toNat

/-- A row of format N, whose command has the opcode `n`: both arguments must be zero. -/
theorem formatN_decodedAs {op : Byte} {n : Nat} {i : Instr} (hop : op.toNat = n)
    (hn : n ∈ [0x00, 0x01, 0x10, 0x11, 0x12, 0x13, 0x14, 0x15, 0x16]) (hwf : i.wellFormed = true)
    (henc : encode i = cmdWord (BitVec.ofNat 8 n) 0 0) (a0 a1 : Byte) : DecodedAs op a0 a1 (formatN a0 a1 i) := by
  subst hop
  rw [BitVec.ofNat_toNat, BitVec.setWidth_eq] at henc
  unfold formatN
  split_ifs with hzero
  · obtain ⟨rfl, rfl⟩ := hzero
    exact ⟨hwf, henc⟩
  · have hargs : a0.toNat ≠ 0 ∨ a1.toNat ≠ 0 :=
      (not_and_or.mp hzero).imp BitVec.toNat_ne.mp BitVec.toNat_ne.mp
    exact .inr (.inr (.inl ⟨hn, hargs⟩))

/-- The decoder answers every word as R111 to R115 say. -/
theorem decodeFields_decodedAs (op a0 a1 : Byte) : DecodedAs op a0 a1 (decodeFields op a0 a1) := by
  unfold decodeFields
  split
  case h_1 hop | h_2 hop | h_7 hop | h_8 hop | h_9 hop | h_10 hop | h_11 hop | h_12 hop | h_13 hop =>
    exact formatN_decodedAs hop (by decide) rfl rfl a0 a1
  case h_3 hop =>
    obtain rfl : op = 0x02 := BitVec.eq_of_toNat_eq hop
    unfold formatL
    split_ifs with h1
    · subst h1
      exact ⟨rfl, rfl⟩
    · exact .inr (.inr (.inr (.inl ⟨rfl, BitVec.toNat_ne.mp h1⟩)))
  case h_4 hop =>
    obtain rfl : op = 0x03 := BitVec.eq_of_toNat_eq hop
    exact ⟨rfl, rfl⟩
  case h_5 hop =>
    obtain rfl : op = 0x04 := BitVec.eq_of_toNat_eq hop
    exact ⟨rfl, rfl⟩
  case h_6 hop =>
    obtain rfl : op = 0x05 := BitVec.eq_of_toNat_eq hop
    unfold formatS
    split_ifs with h1 h4
    · exact .inr (.inr (.inr (.inr ⟨rfl, .inl (BitVec.toNat_ne.mp h1)⟩)))
    · exact .inr (.inr (.inr (.inr ⟨rfl, .inr h4⟩)))
    · obtain rfl := not_not.mp h1
      exact ⟨decide_eq_true (not_lt.mp h4), rfl⟩
  case h_14 =>
    simp only [imp_false] at *
    have hun : (0x06 ≤ op.toNat ∧ op.toNat ≤ 0x0F) ∨ 0x17 ≤ op.toNat := by omega
    exact hun.imp_right .inl

/-! ## Encoding and decoding -/

/-- A well-formed command's word decodes to it. -/
theorem decode_encode {i : Instr} (h : i.wellFormed = true) : decode (encode i) = .ok i := by
  cases i with
  | nop | stateInit | permute | pushField | pullField | sessionInit | sessionClose | computeTopc | f1 | f1star | f2345
  | f5star => exact decode_cmdWord _ _ _
  | selectInst sel =>
    have hsel : ¬ sel.toNat > 4 := not_lt.mpr (of_decide_eq_true h)
    exact (decode_cmdWord _ _ _).trans (if_neg hsel)

/-- Its word is none of R115's. -/
theorem not_illegalWord_encode {i : Instr} (h : i.wellFormed = true) :
    ¬ illegalWord (opField (encode i)).toNat (a0Field (encode i)).toNat (a1Field (encode i)).toNat := by
  cases i with
  | nop | stateInit | permute | pushField | pullField | sessionInit | sessionClose | computeTopc | f1 | f1star | f2345
  | f5star => simp [encode]
  | selectInst sel =>
    have hsel : sel.toNat < 5 := Nat.lt_succ_of_le (of_decide_eq_true h)
    simpa [encode] using hsel

/-- Settles O1. -/
theorem decodeOfEncodeIsIdentity : Obligations.DecodeOfEncodeIsIdentity := fun _ h => decode_encode h

/-- Settles O2: the decoder's table, at the fields of the word. -/
theorem encodeOfDecodeIsIdentity : Obligations.EncodeOfDecodeIsIdentity := by
  unfold Obligations.EncodeOfDecodeIsIdentity
  intro w i h
  have hw : DecodedAs (opField w) (a0Field w) (a1Field w) (decode w) := decodeFields_decodedAs _ _ _
  rwa [h, DecodedAs, cmdWord_fields] at hw

/-- Settles O3: a word that decodes is its command's, so none of R115's, and a word that does not is one of them. -/
theorem illegalWordsRaiseAndOthersExecute : Obligations.IllegalWordsRaiseAndOthersExecute := by
  unfold Obligations.IllegalWordsRaiseAndOthersExecute
  intro s
  have hdec : decode s.commandWord = decodeFields s.cmdOp s.cmdA0 s.cmdA1 := decode_cmdWord _ _ _
  have htable := decodeFields_decodedAs s.cmdOp s.cmdA0 s.cmdA1
  rw [← hdec] at htable
  cases hw : decode s.commandWord with
  | ok i =>
    rw [hw] at htable
    obtain ⟨hwf, henc⟩ := htable
    have hlegal := not_illegalWord_encode hwf
    rw [henc, opField_cmdWord, a0Field_cmdWord, a1Field_cmdWord] at hlegal
    exact ⟨fun hill => absurd hill hlegal, fun _ => ⟨i, hwf, henc, issue_ok hw⟩⟩
  | error e =>
    rw [hw] at htable
    exact ⟨fun _ => issue_error hw, fun hlegal => absurd htable hlegal⟩

/-- Settles O4, word by word. -/
theorem specWordsDecodeAsListed : Obligations.SpecWordsDecodeAsListed := by
  unfold Obligations.SpecWordsDecodeAsListed
  decide

end Sys2Proof
end

section
/-! PROOFS. INSTANCE, and the debug events of each command. -/

namespace Sys2Proof.Machine

/-! ## INSTANCE (R220) -/

/-- With a legal key length a family's checks are those of its byte. -/
theorem resolveInst_of_keyOk {s : State} (h : s.keyOk) (fam : Family) :
    resolveInst fam s = instByte fam (8 * s.k.len.toNat) s := by
  rw [resolveInst, resolveKBits_ok h]

/-- An illegal length, of the key or of the family, raises INVALID_PARAMETER. -/
theorem resolveInst_error {s : State} {fam : Family} (h : ¬ (s.keyOk ∧ s.lengthsOk fam)) :
    resolveInst fam s = .error .invalidParameter := by
  by_cases hk : s.keyOk
  · rw [resolveInst_of_keyOk hk, instByte_error fun hl => h ⟨hk, hl⟩]
  · rw [resolveInst, resolveKBits_error hk]

/-- The selectors of R118 and their families. -/
theorem familyOfCode_listed : ∀ p ∈ [((0 : Byte), Family.topc), (1, .f1), (2, .f1star), (3, .f2345), (4, .f5star)],
    familyOfCode p.1 = some p.2 := by decide

/-- No family has a code above 4. -/
theorem familyOfCode_none {sel : Byte} (h : 4 < sel.toNat) : familyOfCode sel = none := by
  unfold familyOfCode
  split
  case h_6 => rfl
  all_goals omega

/-- Settles O32: the family's checks, then its byte. -/
theorem instanceCommandMeaning : Obligations.InstanceCommandMeaning := by
  unfold Obligations.InstanceCommandMeaning
  intro s
  refine ⟨fun sel fam hmem => ?_, fun sel hsel => exec_selectInst_none (familyOfCode_none hsel) s⟩
  rw [exec_selectInst_some (familyOfCode_listed _ hmem)]
  refine ⟨fun hkey hlen => ?_, fun hbad => ?_⟩
  · obtain ⟨v, hv⟩ := instByte_ok hlen (8 * s.k.len.toNat)
    rw [resolveInst_of_keyOk hkey, hv]
    exact ⟨v, rfl, rfl⟩
  · rw [resolveInst_error hbad]
    rfl

/-! ## Debug events (R312) -/

/-- An event without its snapshot: the code of its label, and its index. -/
def DbgEvent.key (e : DbgEvent) : Byte × Byte := (familyCode e.label, e.index)

/-- The keys of one derivation's events: its label at the indices 0 to ITER. -/
def State.eventKeys (s : State) (label : Byte) : List (Byte × Byte) :=
  (List.range (s.iter.toNat + 1)).map fun j => (label, BitVec.ofNat 8 j)

theorem keys_derivationEvents (s : State) (label : Family) (b : Buf) :
    (s.derivationEvents label b).map DbgEvent.key = if s.dbgEn = false then [] else s.eventKeys (familyCode label) := by
  rw [State.derivationEvents]
  generalize permute = f
  cases hd : s.dbgEn <;> simp [State.eventKeys, DbgEvent.key]

theorem dbg_runFamily (fam : Family) (inst : Byte) (s : State) :
    (runFamily fam inst s).dbg = s.dbg ++ s.derivationEvents fam (familyBlock fam inst s) := by
  cases fam <;> rfl

/-- The TOPc resolution reports the derivation it does, if it does one (R246). -/
theorem dbg_resolveTopc (kbits : Nat) (s : State) :
    (resolveTopc kbits s).dbg =
      s.dbg ++ if s.sess = .uninitialized then s.derivationEvents .topc (topcBlock kbits s) else [] := by
  by_cases h : s.sess = .uninitialized
  · rw [resolveTopc_uninitialized h, if_pos h]; rfl
  · rw [resolveTopc_other h, if_neg h, List.append_nil]

theorem dbg_openSession (s : State) : (openSession s).dbg = s.dbg := by
  by_cases h : s.topcIn.len.toNat = 32
  · rw [openSession_supplied h]
  · rw [openSession_derived h]

/-- Two states with the same ITER have the same events. -/
theorem eventKeys_of_commandInputs {s t : State} (h : t.commandInputs = s.commandInputs) (label : Byte) :
    t.eventKeys label = s.eventKeys label := by
  have hiter : t.iter = s.iter := congrArg (·.1.2.2.2.2.2.2.2) h
  rw [State.eventKeys, State.eventKeys, hiter]

/-- What a command that ends in `t` adds to the history: events with the keys `keys`, but none on failure or with DBG_EN
clear. -/
def Reports (s t : State) (keys : List (Byte × Byte)) : Prop :=
  ∃ new : List DbgEvent, t.dbg = s.dbg ++ new ∧
    new.map DbgEvent.key = if t.err ≠ .ok ∨ s.dbgEn = false then [] else keys

/-- A command that leaves the history alone. -/
theorem reports_nothing {s t : State} (h : t.dbg = s.dbg) : Reports s t [] :=
  ⟨[], by rw [h, List.append_nil], (ite_self _).symm⟩

theorem reports_computeTopc (inst : Byte) (s : State) : Reports s (runFamily .topc inst s).done (s.eventKeys 0) := by
  refine ⟨_, dbg_runFamily .topc inst s, ?_⟩
  rw [keys_derivationEvents]
  simp [familyCode]

/-- An F-command reports the TOPc derivation, if its session has no TOPc yet, and then its own (R246, R312). -/
theorem FamilySucceeds.reports {fam : Family} {s t : State} (h : FamilySucceeds fam s t) :
    Reports s t ((if s.sess = .uninitialized then s.eventKeys 0 else []) ++ s.eventKeys (familyCode fam)) := by
  obtain ⟨-, -, -, -, inst, -, rfl⟩ := h
  have hin := commandInputs_resolveTopc (8 * s.k.len.toNat) s
  rw [Reports, State.fEnd_dbg, dbg_runFamily, dbg_resolveTopc, List.append_assoc]
  refine ⟨_, rfl, ?_⟩
  rw [List.map_append, keys_derivationEvents, dbgEn_of_commandInputs hin, eventKeys_of_commandInputs hin]
  by_cases hsess : s.sess = .uninitialized
  · rw [if_pos hsess, keys_derivationEvents]
    cases s.dbgEn <;> simp [hsess, familyCode]
  · cases s.dbgEn <;> simp [hsess]

/-- Settles O50, command by command. -/
theorem debugEventsOfEachCommand : Obligations.DebugEventsOfEachCommand := by
  unfold Obligations.DebugEventsOfEachCommand
  intro i s t h
  rcases exec_cases h with ⟨e, hne, rfl⟩ | hs
  · exact ⟨[], (List.append_nil _).symm, (if_pos (.inl hne)).symm⟩
  cases i with
  | nop | stateInit | sessionClose => obtain rfl := hs; exact reports_nothing rfl
  | permute len => obtain ⟨-, rfl⟩ := hs; exact reports_nothing rfl
  | pushField off len => obtain ⟨-, rfl⟩ := hs; exact reports_nothing rfl
  | pullField off len => obtain ⟨-, rfl⟩ := hs; exact reports_nothing rfl
  | selectInst sel => obtain ⟨fam, v, -, -, rfl⟩ := hs; exact reports_nothing rfl
  | sessionInit => obtain ⟨-, -, -, rfl⟩ := hs; exact reports_nothing (dbg_openSession s)
  | computeTopc => obtain ⟨kbits, -, rfl⟩ := hs; exact reports_computeTopc (keyFlag kbits) s
  | f1 | f1star | f2345 | f5star => exact FamilySucceeds.reports hs

end Sys2Proof.Machine
end

section
/-! PROOFS. The lanes by coordinates, the five step formulas, and the rounds of the permutation. -/

namespace Sys2Proof.Machine

/-! ## Coordinates (R141) -/

/-- Coordinates count modulo 5 (R14). -/
theorem laneAt_congr (a : Lanes) {x x' y y' : Nat} (hx : x % 5 = x' % 5) (hy : y % 5 = y' % 5) :
    laneAt a x y = laneAt a x' y' := by
  simp only [laneAt, hx, hy]

/-- Lane number `i` is `A[i mod 5, i div 5]`. -/
theorem laneAt_mod_div (a : Lanes) {i : Nat} (h : i < 25) : laneAt a (i % 5) (i / 5) = a[i] := by
  simp only [laneAt, show i % 5 % 5 + 5 * (i / 5 % 5) = i by omega]

/-- Settles O17, by the coordinates of a lane number and the bits of `lane`. -/
theorem laneCoordinatesAndBits : Obligations.LaneCoordinatesAndBits := by
  unfold Obligations.LaneCoordinatesAndBits
  intro b i z hi hz
  exact ⟨by rw [laneAt_mod_div _ hi, getElem_loadLanes b hi], getLsbD_lane b i hz⟩

/-! ## The five steps, lane by lane (R143 to R147) -/

theorem parity_congr (a : Lanes) {x x' : Nat} (hx : x % 5 = x' % 5) : parity a x = parity a x' := by
  simp only [parity, fun y => laneAt_congr a hx (rfl : y % 5 = y % 5)]

theorem laneAt_theta (a : Lanes) (x y : Nat) :
    laneAt (theta a) x y = laneAt a x y ^^^ (parity a (x + 4) ^^^ (parity a (x + 1)).rotateLeft 1) := by
  have hlane : laneAt a (x % 5) (y % 5) = laneAt a x y := laneAt_congr a (Nat.mod_mod x 5) (Nat.mod_mod y 5)
  have hcol : ∀ k, parity a ((x % 5 % 5 + k) % 5) = parity a (x + k) := fun k => parity_congr a (by omega)
  rw [theta, laneAt_lanesOf, hlane]
  simp only [Vector.getElem_ofFn, hcol]

theorem laneAt_rho (a : Lanes) (x y : Nat) :
    laneAt (rho a) x y = (laneAt a x y).rotateLeft (rhoOffsets[x % 5 + 5 * (y % 5)]'(by omega)) := by
  simp [laneAt, rho]

theorem laneAt_piStep (a : Lanes) (x y : Nat) : laneAt (piStep a) x y = laneAt a (x + 3 * y) x := by
  rw [piStep, laneAt_lanesOf]
  exact laneAt_congr a (by omega) (by omega)

theorem laneAt_chi (a : Lanes) (x y : Nat) :
    laneAt (chi a) x y = laneAt a x y ^^^ (~~~ laneAt a (x + 1) y &&& laneAt a (x + 2) y) := by
  rw [chi, laneAt_lanesOf]
  have hy := Nat.mod_mod y 5
  rw [laneAt_congr a (Nat.mod_mod x 5) hy, laneAt_congr a (Nat.mod_add_mod x 5 1) hy,
    laneAt_congr a (Nat.mod_add_mod x 5 2) hy]

theorem laneAt_iota (c : Lane) (a : Lanes) {x y : Nat} (hx : x < 5) (hy : y < 5) :
    laneAt (iota c a) x y = if x = 0 ∧ y = 0 then laneAt a 0 0 ^^^ c else laneAt a x y := by
  by_cases h : x = 0 ∧ y = 0
  · obtain ⟨rfl, rfl⟩ := h
    simp [iota, laneAt]
  · rw [if_neg h]
    exact Vector.getElem_set_ne (by omega) (by omega) (by omega)

/-- The offsets by lane number are those of the printed table (R144). -/
theorem rhoOffsets_eq_rhoRows :
    ∀ x y : Fin 5, rhoOffsets[x.val + 5 * y.val] = (rhoRows.getD y []).getD x 0 := by decide

/-- The printed source lanes have the coordinates of pi's second form (R145). -/
theorem piSources_coordinates : ∀ x y : Fin 5,
    piSources.getD (x + 5 * y) 0 % 5 = (x.val + 3 * y.val) % 5 ∧ piSources.getD (x + 5 * y) 0 / 5 = x.val := by decide

/-- pi by its printed source lanes (R145). -/
theorem laneAt_piStep_piSources (a : Lanes) {x y : Nat} (hx : x < 5) (hy : y < 5) :
    laneAt (piStep a) x y = laneAt a (piSources.getD (x + 5 * y) 0 % 5) (piSources.getD (x + 5 * y) 0 / 5) := by
  obtain ⟨hmod, hdiv⟩ := piSources_coordinates ⟨x, hx⟩ ⟨y, hy⟩
  rw [laneAt_piStep, hmod, hdiv]
  exact laneAt_congr a (Nat.mod_mod _ 5).symm rfl

/-- Settles O18: one lemma per step, with the printed tables. -/
theorem stepFormulasHoldPerLane : Obligations.StepFormulasHoldPerLane := by
  unfold Obligations.StepFormulasHoldPerLane
  intro a x y hx hy
  refine ⟨laneAt_theta a x y, ?rho, ?pi, laneAt_piStep_piSources a hx hy, laneAt_chi a x y,
    fun c => laneAt_iota c a hx hy⟩
  case rho =>
    rw [laneAt_rho, ← rhoOffsets_eq_rhoRows ⟨x, hx⟩ ⟨y, hy⟩]
    simp only [Nat.mod_eq_of_lt hx, Nat.mod_eq_of_lt hy]
  case pi =>
    rw [laneAt_piStep]
    exact laneAt_congr a (by omega) rfl

/-! ## The rounds (R142, R148, R151) -/

/-- A sequence that takes one step per item of a list ends in the fold over the list. -/
theorem foldl_eq_of_steps {α β : Type} {f : β → α → β} {cs : List α} {r : Nat → β}
    (h : ∀ k (hk : k < cs.length), r (k + 1) = f (r k) cs[k]) : cs.foldl f (r 0) = r cs.length := by
  induction cs generalizing r with
  | nil => rfl
  | cons c cs ih =>
    have hfirst : r 1 = f (r 0) c := h 0 (by simp)
    rw [List.foldl_cons, ← hfirst]
    exact ih (r := fun k => r (k + 1)) fun k hk => h (k + 1) (by simpa using hk)

/-- Settles O21: the rounds are a fold over the table of constants. -/
theorem permuteIsTwentyFourRounds : Obligations.PermuteIsTwentyFourRounds := by
  unfold Obligations.PermuteIsTwentyFourRounds
  intro b r hload hround
  have hrounds : rounds (r 0) = r roundConstants.toList.length :=
    foldl_eq_of_steps fun k hk => hround ⟨k, by simpa using hk⟩
  rw [permute_eq, ← hload, hrounds, Vector.length_toList]

/-- The table of R147, its left column and then its right one, is what the register gives for the rounds in order. -/
theorem toList_roundConstants : roundConstants.toList = (List.range 24).map lfsrConstant := by
  rw [roundConstants, Vector.toList_append, Vector.toList_map, Vector.toList_map]
  decide

/-- Settles O20, row by row of the table. -/
theorem roundConstantsFollowShiftRegister : Obligations.RoundConstantsFollowShiftRegister := by
  unfold Obligations.RoundConstantsFollowShiftRegister
  intro ir
  have hrow : roundConstants.toList[ir.val]? = some (lfsrConstant ir.val) := by
    rw [toList_roundConstants]
    simp
  simpa using hrow

/-- Settles O22: the two branches of `execPermute`. -/
theorem permuteCommandMeaning : Obligations.PermuteCommandMeaning := by
  unfold Obligations.PermuteCommandMeaning
  intro s len
  exact ⟨fun hlen => if_neg (not_not.mpr hlen), fun hlen => if_pos hlen⟩

end Sys2Proof.Machine
end

section
/-! PROOFS. The in-place rho-pi loop of R150. It follows pi's one cycle through the lanes 1 to 24: each turn writes what
rho and pi leave at a place, whose input lane the next turn carries on. -/

namespace Sys2Proof.Machine

/-- Lane `d` of pi's result is its printed source lane `p` (R145). -/
theorem getElem?_piStep (a : Lanes) {d p : Nat} (h : piSources[d]? = some p) : (piStep a)[d]? = a[p]? := by
  obtain ⟨hd, hp⟩ := List.getElem?_eq_some_iff.mp h
  have hd25 : d < 25 := hd
  have hp25 : p < 25 := (by decide : ∀ s ∈ piSources, s < 25) p (List.mem_of_getElem? h)
  have hsrc : piSources.getD (d % 5 + 5 * (d / 5)) 0 = p := by
    rw [Nat.mod_add_div, List.getD_eq_getElem?_getD, h, Option.getD_some]
  rw [Vector.getElem?_eq_getElem hd25, Vector.getElem?_eq_getElem hp25, ← laneAt_mod_div _ hd25,
    laneAt_piStep_piSources a (by omega) (by omega), hsrc, laneAt_mod_div a hp25]

/-- A turn that writes place `q.1` obeys the tables of R144 and R145, after a turn at place `p.1`: that is the source
lane of `q.1`, and `q.2` its offset. -/
abbrev TurnFollows (p q : Nat × Nat) : Prop := piSources[q.1]? = some p.1 ∧ rhoOffsets[p.1]? = some q.2

/-- What such a turn writes, the carried lane rotated, is the lane of rho then pi. -/
theorem getElem?_piStep_rho (a : Lanes) {p q : Nat × Nat} (h : TurnFollows p q) :
    (piStep (rho a))[q.1]? = some ((a[p.1]?.getD 0).rotateLeft q.2) := by
  obtain ⟨hsrc, hoff⟩ := h
  obtain ⟨hp, hq⟩ := Vector.getElem?_eq_some_iff.mp hoff
  rw [getElem?_piStep _ hsrc, Vector.getElem?_eq_getElem hp, Vector.getElem?_eq_getElem hp, Option.getD_some, ← hq]
  simp [rho]

/-- The loop after its turn at place `p`, with the turns `l` to come: `a`'s lane `p` is carried, the places of `l` hold
`a`'s lanes, and every other place its lane of rho then pi. -/
def LoopAt (a : Lanes) (p : Nat) (l : List (Nat × Nat)) (c : Lanes × Lane) : Prop :=
  c.2 = a[p]?.getD 0 ∧ ∀ j : Nat, c.1[j]? = if j ∈ l.map Prod.fst then a[j]? else (piStep (rho a))[j]?

/-- A turn that follows the tables goes on to the next turn. -/
theorem LoopAt.turn {a : Lanes} {p q : Nat × Nat} {l : List (Nat × Nat)} {c : Lanes × Lane}
    (hc : LoopAt a p.1 (q :: l) c) (hq : TurnFollows p q) (hnew : q.1 ∉ l.map Prod.fst) :
    LoopAt a q.1 l (rhoPiTurn c q) := by
  obtain ⟨hcarry, hplace⟩ := hc
  refine ⟨by simp [rhoPiTurn, hplace], fun j => ?_⟩
  by_cases hj : q.1 = j
  · subst hj
    have hlt : q.1 < 25 := (List.getElem?_eq_some_iff.mp hq.1).1
    rw [if_neg hnew, getElem?_piStep_rho a hq, ← hcarry]
    simp [rhoPiTurn, hlt]
  · rw [rhoPiTurn, Vector.getElem?_setIfInBounds_ne hj, hplace]
    simp only [List.map_cons, List.mem_cons, Ne.symm hj, false_or]

/-- Turns that follow the tables one after the other, each at a place of its own, end with rho then pi. -/
theorem LoopAt.foldl_eq {a : Lanes} {p : Nat × Nat} {l : List (Nat × Nat)} {c : Lanes × Lane}
    (hc : LoopAt a p.1 l c) (hl : (p :: l).IsChain TurnFollows) (hnodup : (l.map Prod.fst).Nodup) :
    (l.foldl rhoPiTurn c).1 = piStep (rho a) := by
  induction l generalizing p c with
  | nil =>
    obtain ⟨-, hplace⟩ := hc
    refine Vector.ext fun j hj => Option.some.inj ?_
    simpa [hj] using hplace j
  | cons q l ih =>
    obtain ⟨hq, htail⟩ := List.isChain_cons_cons.mp hl
    obtain ⟨hnew, hrest⟩ := List.nodup_cons.mp hnodup
    exact ih (hc.turn hq hnew) htail hrest

/-- Before the loop lane 1 is carried, and lane 0, the one place with no turn, is neither moved nor rotated. -/
theorem loopAt_start (a : Lanes) : LoopAt a 1 (piln.zip rotc) (a, a[1]) := by
  refine ⟨rfl, fun j => ?_⟩
  by_cases hj : j ∈ (piln.zip rotc).map Prod.fst
  · rw [if_pos hj]
  · rw [if_neg hj]
    by_cases hlt : j < 25
    · obtain rfl : j = 0 := (by decide : ∀ j < 25, j ∉ (piln.zip rotc).map Prod.fst → j = 0) j hlt hj
      rw [getElem?_piStep_rho a (p := (0, 0)) (q := (0, 0)) (by decide)]
      simp [BitVec.rotateLeft_def, BitVec.ushiftRight_eq_zero]
    · simp [hlt]

/-- Settles O19: PILN and ROTC follow the tables of R144 and R145 from lane 1 on, and PILN repeats no place. -/
theorem sequentialRhoPiAgrees : Obligations.SequentialRhoPiAgrees := by
  unfold Obligations.SequentialRhoPiAgrees
  intro a
  exact (loopAt_start a).foldl_eq (p := (1, 0)) (by decide) (by decide)

end Sys2Proof.Machine
end

section
/-! PROOFS. The codec: the bytes of a packed buffer, of an extracted field and of an assembled state, and the three
codec commands. -/

namespace Sys2Proof.Machine

/-! ## Packing and extracting a field (R182, R183) -/

/-- Byte `p` of a buffer after a field is packed. -/
theorem byteAt_pushField (b : Buf) (off : Nat) (d : Bytes) {p : Nat} (hp : p < 200) :
    byteAt (pushField b off d) p =
      if off ≤ p ∧ p < off + d.length then d.getD (off + d.length - 1 - p) 0 else byteAt b p := by
  rw [byteAt_of_lt _ hp, byteAt_of_lt _ hp, getElem_pushField]

/-- A packed field stands last byte first in its range. -/
theorem byteAt_pushField_reversed (b : Buf) {off : Nat} {d : Bytes} (hfit : off + d.length ≤ 200) {i : Nat}
    (hi : i < d.length) : byteAt (pushField b off d) (off + d.length - 1 - i) = d.getD i 0 := by
  have hback : off + d.length - 1 - (off + d.length - 1 - i) = i := by omega
  rw [byteAt_pushField _ _ _ (by omega), if_pos (by omega), hback]

/-- Outside its range the buffer keeps its bytes. -/
theorem byteAt_pushField_outside (b : Buf) {off p : Nat} {d : Bytes} (hp : p < off ∨ off + d.length ≤ p) :
    byteAt (pushField b off d) p = byteAt b p := by
  by_cases h : p < 200
  · rw [byteAt_pushField _ _ _ h, if_neg (by omega)]
  · simp [byteAt, h]

/-- Byte `i` of an extracted field, and 0x00 past it. -/
theorem getD_pullField (b : Buf) {off n : Nat} (hfit : off + n ≤ 200) (i : Nat) :
    (pullField b off n).getD i 0 = if i < n then byteAt b (off + n - 1 - i) else 0 := by
  have hlen := length_pullField b hfit
  by_cases hi : i < n
  · rw [if_pos hi, List.getD_eq_getElem _ _ (hlen.symm ▸ hi), getElem_pullField b hfit hi, byteAt_of_lt]
  · rw [if_neg hi, List.getD_eq_default _ _ (by omega)]

/-- A field pulled from where it was pushed is the field (R188). -/
theorem pullField_pushField (b : Buf) {off : Nat} {d : Bytes} (hfit : off + d.length ≤ 200) :
    pullField (pushField b off d) off d.length = d := by
  refine List.ext_getElem (length_pullField _ hfit) fun i hi hd => ?_
  rw [← List.getD_eq_getElem _ 0 hi, ← List.getD_eq_getElem _ 0 hd, getD_pullField _ hfit, if_pos hd,
    byteAt_pushField_reversed b hfit hd]

/-- Settles O23. -/
theorem pushFieldReversesIntoItsRange : Obligations.PushFieldReversesIntoItsRange := by
  unfold Obligations.PushFieldReversesIntoItsRange
  exact fun b off d hfit =>
    ⟨fun i hi => byteAt_pushField_reversed b hfit hi, fun p hp => byteAt_pushField_outside b hp⟩

/-- Settles O24. -/
theorem pullFieldReversesItsRange : Obligations.PullFieldReversesItsRange := by
  unfold Obligations.PullFieldReversesItsRange
  intro b off n hfit
  exact ⟨length_pullField b hfit, fun i hi => (getD_pullField b hfit i).trans (if_pos hi)⟩

/-- Settles O25; the bound of 32 bytes is not needed. -/
theorem pulledFieldIsPushedField : Obligations.PulledFieldIsPushedField := by
  unfold Obligations.PulledFieldIsPushedField
  exact fun b off d _ hfit => pullField_pushField b hfit

/-! ## Assembled states (R185 to R190) -/

theorem byteAt_newState {p : Nat} (hp : p < 200) :
    byteAt newState p = if p = 96 then 0x1F else if p = 135 then 0x80 else 0 := by
  rw [byteAt_of_lt _ hp, getElem_newState]

/-- An optional field of `n` bytes packed over 0x00 bytes: reversed in its range if present, 0x00 if absent (R190). -/
theorem byteAt_pushIf {b : Buf} {off n : Nat} {d : Option Bytes} (hd : ∀ x ∈ d, x.length = n) {p : Nat}
    (hp : p < 200) (hzero : off ≤ p → p < off + n → byteAt b p = 0) :
    byteAt (pushIf b off d) p =
      if off ≤ p ∧ p < off + n then (d.getD []).getD (off + n - 1 - p) 0 else byteAt b p := by
  cases d with
  | none =>
    split
    · next h => exact hzero h.1 h.2
    · rfl
  | some x =>
    obtain rfl := hd x rfl
    exact byteAt_pushField b off x hp

/-- The identifier "TUAK1.0" as it stands in a state, last byte first (R187). -/
theorem algoBytes_reversed : ∀ i < 7,
    algoBytes.getD (6 - i) 0 = [0x30, 0x2E, 0x31, 0x4B, 0x41, 0x55, 0x54].getD i 0 := by decide

/-- The part of an assembled state that is always present: the first field, the configuration byte and the identifier. -/
def headerBlock (first : Bytes) (inst : Byte) : Buf :=
  pushField (pushField (pushField newState 0 first) 32 [inst]) 33 algoBytes

theorem assembleState_eq (first : Bytes) (inst : Byte) (rand amf sqn : Option Bytes) (k : Bytes) :
    assembleState first inst rand amf sqn k =
      pushField (pushIf (pushIf (pushIf (headerBlock first inst) 40 rand) 56 amf) 58 sqn) 64 k := rfl

theorem byteAt_headerBlock {first : Bytes} (hfirst : first.length = 32) (inst : Byte) {p : Nat} (hp : p < 200) :
    byteAt (headerBlock first inst) p =
      if p < 32 then first.getD (31 - p) 0
      else if p = 32 then inst
      else if p < 40 then [0x30, 0x2E, 0x31, 0x4B, 0x41, 0x55, 0x54].getD (p - 33) 0
      else if p = 96 then 0x1F
      else if p = 135 then 0x80
      else 0 := by
  have halgo : algoBytes.length = 7 := rfl
  simp only [headerBlock, byteAt_pushField _ _ _ hp, byteAt_newState hp, hfirst, halgo, List.length_singleton]
  have hregion : p < 32 ∨ p = 32 ∨ (33 ≤ p ∧ p < 40) ∨ 40 ≤ p := by omega
  rcases hregion with h | rfl | h | h
  · simp (disch := omega) only [if_pos, if_neg]
  · rfl
  · have hback : 33 + 7 - 1 - p = 6 - (p - 33) := by omega
    rw [hback, algoBytes_reversed (p - 33) (by omega)]
    simp (disch := omega) only [if_pos, if_neg]
  · simp (disch := omega) only [if_neg]

/-- Settles O26, field by field from the last one packed: no later field covers an earlier one, and where an optional
field would stand the header is 0x00. -/
theorem assembledStateLayout : Obligations.AssembledStateLayout := by
  unfold Obligations.AssembledStateLayout
  intro first inst rand amf sqn k hfirst hrand hamf hsqn hk p hp
  have hheader := byteAt_headerBlock hfirst inst hp
  have hzero (h40 : 40 ≤ p) (h64 : p < 64) : byteAt (headerBlock first inst) p = 0 := by
    rw [hheader]
    simp (disch := omega) only [if_neg]
  have hrandByte := byteAt_pushIf hrand (off := 40) hp fun _ _ => hzero (by omega) (by omega)
  have hamfByte := byteAt_pushIf hamf (off := 56) hp fun _ _ => by
    rw [hrandByte, if_neg (by omega), hzero (by omega) (by omega)]
  have hsqnByte := byteAt_pushIf hsqn (off := 58) hp fun _ _ => by
    rw [hamfByte, if_neg (by omega), hrandByte, if_neg (by omega), hzero (by omega) (by omega)]
  have hkByte : 64 + k.length - 1 - p = 63 + k.length - p := by omega
  rw [assembleState_eq, byteAt_pushField _ _ _ hp, hsqnByte, hamfByte, hrandByte, hheader, hkByte]
  have hregion : p < 40 ∨ (40 ≤ p ∧ p < 56) ∨ (56 ≤ p ∧ p < 58) ∨ (58 ≤ p ∧ p < 64) ∨
      (64 ≤ p ∧ p < 64 + k.length) ∨ 64 + k.length ≤ p := by omega
  rcases hregion with h | h | h | h | h | h <;> simp (disch := omega) only [if_pos, if_neg]

/-! ## The bytes of registers (R13, R254) -/

theorem byteAt_fill {cap i : Nat} (v : Bytes) (hi : i < cap) : byteAt (fill cap v) i = v.getD i 0 := by
  rw [byteAt_of_lt _ hi, getElem_fill]

/-- Byte `i` of a register's first `n` bytes, and 0x00 past them. -/
theorem getD_firstBytes {cap : Nat} (v : Vector Byte cap) (n i : Nat) :
    (firstBytes v n).getD i 0 = if i < n then byteAt v i else 0 := by
  rw [List.getD_eq_getElem?_getD, firstBytes, List.getElem?_take, Vector.getElem?_toList, byteAt]
  split <;> rfl

/-- The operand `len` of the codec commands is the length of the field FIELD gives. -/
theorem length_firstBytes_of_le {cap n : Nat} (v : Vector Byte cap) (h : n ≤ cap) : (firstBytes v n).length = n := by
  rw [length_firstBytes, Nat.min_eq_left h]

/-! ## The codec commands (R191 to R193) -/

section
variable {off len : Byte} (h : len.toNat ≤ 32 ∧ off.toNat + len.toNat ≤ 200) (s : State)
include h

theorem exec_pushField_ok :
    exec (.pushField off len) s =
      .next { s with stateBuf := pushField s.stateBuf off.toNat (firstBytes s.field len.toNat), err := .ok } :=
  if_pos (decide_eq_true h)

theorem exec_pullField_ok :
    exec (.pullField off len) s =
      .next { s with field := fill 32 (pullField s.stateBuf off.toNat len.toNat), err := .ok } :=
  if_pos (decide_eq_true h)

end

/-- Settles O27. -/
theorem stateInitMeaning : Obligations.StateInitMeaning := by
  unfold Obligations.StateInitMeaning
  exact fun s => ⟨newState, rfl, fun p hp => byteAt_newState hp⟩

/-- Settles O28: the two branches of the command, and the bytes of the packed buffer. -/
theorem pushFieldCommandMeaning : Obligations.PushFieldCommandMeaning := by
  unfold Obligations.PushFieldCommandMeaning
  intro s off len
  refine ⟨fun h => ⟨_, exec_pushField_ok h s, ?_⟩, fun h => if_neg (mt of_decide_eq_true h)⟩
  obtain ⟨hle, hfit⟩ := h
  have hlen := length_firstBytes_of_le s.field hle
  refine ⟨fun i hi => ?_, fun p hp => byteAt_pushField_outside _ (by rwa [hlen])⟩
  have hbyte := byteAt_pushField_reversed s.stateBuf (d := firstBytes s.field len.toNat) (hlen.symm ▸ hfit)
    (hlen.symm ▸ hi)
  rwa [hlen, getD_firstBytes, if_pos hi] at hbyte

/-- Settles O29: the two branches of the command, and the bytes of the filled register. -/
theorem pullFieldCommandMeaning : Obligations.PullFieldCommandMeaning := by
  unfold Obligations.PullFieldCommandMeaning
  intro s off len
  refine ⟨fun h => ⟨_, exec_pullField_ok h s, fun i hi => ?_⟩, fun h => if_neg (mt of_decide_eq_true h)⟩
  rw [byteAt_fill _ hi, getD_pullField _ h.2]

/-- Settles O30: what PULL_FIELD reads is the field that PUSH_FIELD packed, the first `len` bytes of FIELD. -/
theorem pullAfterPushRestoresField : Obligations.PullAfterPushRestoresField := by
  unfold Obligations.PullAfterPushRestoresField
  intro s off len hle hfit
  refine ⟨_, _, exec_pushField_ok ⟨hle, hfit⟩ s, exec_pullField_ok ⟨hle, hfit⟩ _, rfl, rfl, fun i hi => ?_⟩
  have hlen := length_firstBytes_of_le s.field hle
  have hpull := pullField_pushField s.stateBuf (d := firstBytes s.field len.toNat) (hlen.symm ▸ hfit)
  rw [hlen] at hpull
  rw [byteAt_fill _ hi, hpull, getD_firstBytes]

end Sys2Proof.Machine
end

section
/-! PROOFS. The F-commands on a READY session: one derivation of the family, whose outputs alone are written. -/

namespace Sys2Proof.Machine

/-! ## What a family assembles (R247) -/

/-- A register's first bytes, when they are all of them, are its bytes. -/
theorem firstBytes_cap {cap : Nat} (v : Vector Byte cap) : firstBytes v cap = v.toList :=
  List.take_of_length_le (by simp)

/-- F1 and F1STAR assemble the whole of RAND, AMF and SQN, and K to its length. -/
theorem macBlock_eq (inst : Byte) (s : State) :
    macBlock inst s = assembleState s.topcCache.toList inst (some s.rand.bytes.toList) (some s.amf.bytes.toList)
      (some s.sqn.bytes.toList) (s.k.bytes.toList.take s.k.len.toNat) := by
  rw [macBlock, State.randValue, State.amfValue, State.sqnValue, firstBytes_cap, firstBytes_cap, firstBytes_cap]
  rfl

/-- F2345 and F5STAR assemble RAND and K, without AMF and SQN. -/
theorem randBlock_eq (inst : Byte) (s : State) :
    randBlock inst s = assembleState s.topcCache.toList inst (some s.rand.bytes.toList) none none
      (s.k.bytes.toList.take s.k.len.toNat) := by
  rw [randBlock, State.randValue, firstBytes_cap]
  rfl

/-! ## What a family writes (R248 to R251, R254) -/

section
variable {s : State} (b : Buf)

theorem withOutputs_f1 (h : s.macOk) :
    s.withOutputs .f1 b = { s with
      maca := ⟨fill 32 (pullField b 0 (s.maclength.toNat / 8)), BitVec.ofNat 8 (s.maclength.toNat / 8)⟩ } := by
  rw [State.withOutputs, writeOut_pullField 32 b (by omega)]

theorem withOutputs_f1star (h : s.macOk) :
    s.withOutputs .f1star b = { s with
      macs := ⟨fill 32 (pullField b 0 (s.maclength.toNat / 8)), BitVec.ofNat 8 (s.maclength.toNat / 8)⟩ } := by
  rw [State.withOutputs, writeOut_pullField 32 b (by omega)]

theorem withOutputs_f2345 (h : s.keysOk) :
    s.withOutputs .f2345 b = { s with
      res := ⟨fill 32 (pullField b 0 (s.reslength.toNat / 8)), BitVec.ofNat 8 (s.reslength.toNat / 8)⟩
      ck := ⟨fill 32 (pullField b 32 (s.cklength.toNat / 8)), BitVec.ofNat 8 (s.cklength.toNat / 8)⟩
      ik := ⟨fill 32 (pullField b 64 (s.iklength.toNat / 8)), BitVec.ofNat 8 (s.iklength.toNat / 8)⟩
      ak := ⟨fill 6 (pullField b 96 6), 6⟩ } := by
  obtain ⟨hres, hck, hik⟩ := h
  rw [State.withOutputs, writeOut_pullField 32 b (by omega), writeOut_pullField 32 b (by omega),
    writeOut_pullField 32 b (by omega), writeOut_pullField 6 b (by omega)]
  rfl

theorem withOutputs_f5star : s.withOutputs .f5star b = { s with aks := ⟨fill 6 (pullField b 96 6), 6⟩ } := by
  rw [State.withOutputs, writeOut_pullField 6 b (by omega)]
  rfl

end

/-! ## The commands on a READY session -/

/-- An F-command on a READY session finds TOPc in the cache and leaves SESS as it is (R246). -/
theorem exec_family_ready {fam : Family} {i : Instr} (hcmd : Family.command fam = some i) {s : State}
    (hready : s.sess = .ready) (hin : s.inputsOk) (hlen : s.lengthsOk fam) :
    ∃ inst, instByte fam (8 * s.k.len.toNat) s = .ok inst ∧
      exec i s = .next { runFamily fam inst s with err := .ok } := by
  obtain ⟨inst, hinst, hexec⟩ := exec_family_ok hcmd (by rw [hready]; decide) hin hlen
  have hsess : .ready = (runFamily fam inst s).sess := by rw [sess_runFamily, hready]
  refine ⟨inst, hinst, ?_⟩
  rw [hexec, resolveTopc_other (by rw [hready]; decide), State.fEnd, hsess]

/-- Settles O39. -/
theorem f1WritesMacA : Obligations.F1WritesMacA := by
  unfold Obligations.F1WritesMacA
  intro s hready hin hmac
  obtain ⟨inst, hinst, hexec⟩ := exec_family_ready (fam := .f1) rfl hready hin hmac
  rw [runFamily, withOutputs_f1 (s := s.report _ _) _ hmac, familyBlock, macBlock_eq] at hexec
  exact ⟨inst, hinst, hexec⟩

/-- Settles O40. -/
theorem f1StarWritesMacS : Obligations.F1StarWritesMacS := by
  unfold Obligations.F1StarWritesMacS
  intro s hready hin hmac
  obtain ⟨inst, hinst, hexec⟩ := exec_family_ready (fam := .f1star) rfl hready hin hmac
  rw [runFamily, withOutputs_f1star (s := s.report _ _) _ hmac, familyBlock, macBlock_eq] at hexec
  exact ⟨inst, hinst, hexec⟩

/-- Settles O41. -/
theorem f2345WritesFourOutputs : Obligations.F2345WritesFourOutputs := by
  unfold Obligations.F2345WritesFourOutputs
  intro s hready hin hkeys
  obtain ⟨inst, hinst, hexec⟩ := exec_family_ready (fam := .f2345) rfl hready hin hkeys
  rw [runFamily, withOutputs_f2345 (s := s.report _ _) _ hkeys, familyBlock, randBlock_eq] at hexec
  exact ⟨inst, hinst, hexec⟩

/-- F5STAR's configuration byte on a legal key length (R217). -/
theorem instByte_f5star {s : State} (h : s.keyOk) :
    instByte .f5star (8 * s.k.len.toNat) s = .ok (if s.k.len.toNat = 32 then 0xC1 else 0xC0) := by
  obtain ⟨hk, -⟩ := h
  rcases hk with hk | hk <;> rw [hk] <;> rfl

/-- Settles O42: no output length is read, and the key length gives the configuration byte. -/
theorem f5StarWritesAkStar : Obligations.F5StarWritesAkStar := by
  unfold Obligations.F5StarWritesAkStar
  intro s hready hin
  obtain ⟨inst, hinst, hexec⟩ := exec_family_ready (fam := .f5star) rfl hready hin trivial
  obtain rfl := Except.ok.inj ((instByte_f5star hin.1).symm.trans hinst)
  rw [runFamily, withOutputs_f5star, familyBlock, randBlock_eq] at hexec
  exact hexec

end Sys2Proof.Machine
end

section
/-! PROOFS. The selector: the bits of each family's configuration byte, and the profile a byte determines. -/

namespace Sys2Proof.Machine

/-! ## The bits of the codes (R211 to R217) -/

/-- Bit `i` of a configuration byte as the spec counts them, the one of `IBIT(i)` (R12). -/
def instBit (v : Byte) (i : Nat) : Bool := v.getLsbD (7 - i)

@[simp] theorem instBit_zero (i : Nat) : instBit 0#8 i = false := BitVec.getLsbD_zero

@[simp] theorem instBit_or (v w : Byte) (i : Nat) : instBit (v ||| w) i = (instBit v i || instBit w i) :=
  BitVec.getLsbD_or

theorem instBit_ibit : ∀ j < 8, ∀ i < 8, instBit (ibit j) i = decide (i = j) := by decide

theorem instBit_keyFlag (kbits : Nat) {i : Nat} (hi : i < 8) :
    instBit (keyFlag kbits) i = decide (i = 7 ∧ kbits = 256) := by
  by_cases h : kbits = 256
  · simp [keyFlag, h, instBit_ibit 7 (by decide) i hi]
  · simp [keyFlag, h]

/-- Bit `i` of the code of a MAC or RES length: 256, 128 and 64 have one bit each, 32 has none (R214, R216). -/
def lengthBit (n i : Nat) : Bool := decide ((i = 2 ∧ n = 256) ∨ (i = 3 ∧ n = 128) ∨ (i = 4 ∧ n = 64))

theorem instBit_macCode {n : Nat} {m : Byte} (h : macCode n = some m) {i : Nat} (hi : i < 8) :
    instBit m i = lengthBit n i := by
  unfold macCode at h
  split at h <;> cases h <;> decide +revert

theorem instBit_resCode {n : Nat} {r : Byte} (h : resCode n = some r) {i : Nat} (hi : i < 8) :
    instBit r i = lengthBit n i := by
  unfold resCode at h
  split at h <;> cases h <;> decide +revert

theorem instBit_sessionKeyCode {n j : Nat} {c : Byte} (h : sessionKeyCode n j = some c) (hj : j < 8) {i : Nat}
    (hi : i < 8) : instBit c i = decide (i = j ∧ n = 256) := by
  unfold sessionKeyCode at h
  split at h <;> cases h
  · simp
  · simp [instBit_ibit j hj i hi]

/-- Two legal lengths whose codes have the same bits are the same. -/
theorem lengthBit_inj {n n' : Nat} (hn : n = 32 ∨ n = 64 ∨ n = 128 ∨ n = 256)
    (hn' : n' = 32 ∨ n' = 64 ∨ n' = 128 ∨ n' = 256)
    (h : ∀ i, 2 ≤ i → i ≤ 4 → lengthBit n i = lengthBit n' i) : n = n' := by
  have h256 : n = 256 ↔ n' = 256 := by simpa [lengthBit] using h 2 (by decide) (by decide)
  have h128 : n = 128 ↔ n' = 128 := by simpa [lengthBit] using h 3 (by decide) (by decide)
  have h64 : n = 64 ↔ n' = 64 := by simpa [lengthBit] using h 4 (by decide) (by decide)
  omega

/-! ## The layout of each family's byte (R212 to R219) -/

/-- Bit `i` of a family's configuration byte. -/
def layoutBit (fam : Family) (kbits : Nat) (s : State) (i : Nat) : Bool :=
  decide (i = 7 ∧ kbits = 256) ||
    match fam with
    | .topc => false
    | .f1 => lengthBit s.maclength.toNat i
    | .f1star => decide (i = 0) || lengthBit s.maclength.toNat i
    | .f2345 => decide (i = 1) || lengthBit s.reslength.toNat i ||
        decide (i = 5 ∧ s.cklength.toNat = 256) || decide (i = 6 ∧ s.iklength.toNat = 256)
    | .f5star => decide (i = 0) || decide (i = 1)

/-- F1's and F1STAR's byte has a MAC code (R213). -/
theorem macInstByte_eq_ok {star v : Byte} {bits kbits : Nat} (h : macInstByte star bits kbits = .ok v) :
    ∃ m, macCode bits = some m ∧ v = star ||| m ||| keyFlag kbits := by
  unfold macInstByte at h
  split at h <;> cases h
  exact ⟨_, ‹_›, rfl⟩

/-- F2345's byte has the codes of its three lengths (R215). -/
theorem keysInstByte_eq_ok {v : Byte} {res ck ik kbits : Nat} (h : keysInstByte res ck ik kbits = .ok v) :
    ∃ r c i, resCode res = some r ∧ sessionKeyCode ck 5 = some c ∧ sessionKeyCode ik 6 = some i ∧
      v = ibit 1 ||| r ||| c ||| i ||| keyFlag kbits := by
  unfold keysInstByte at h
  split at h <;> cases h
  exact ⟨_, _, _, ‹_›, ‹_›, ‹_›, rfl⟩

section
variable {fam : Family} {kbits : Nat} {s : State} {v : Byte} (h : instByte fam kbits s = .ok v)
include h

/-- The selector's byte has the bits of its family's layout. -/
theorem instBit_instByte {i : Nat} (hi : i < 8) : instBit v i = layoutBit fam kbits s i := by
  have hkey := instBit_keyFlag kbits hi
  have hbit0 := instBit_ibit 0 (by decide) i hi
  have hbit1 := instBit_ibit 1 (by decide) i hi
  cases fam with
  | topc =>
    cases h
    simp [layoutBit, hkey]
  | f1 =>
    obtain ⟨m, hm, rfl⟩ := macInstByte_eq_ok h
    simp [layoutBit, instBit_macCode hm hi, hkey, Bool.or_comm]
  | f1star =>
    obtain ⟨m, hm, rfl⟩ := macInstByte_eq_ok h
    simp [layoutBit, hbit0, instBit_macCode hm hi, hkey, Bool.or_comm]
  | f2345 =>
    obtain ⟨r, c, k, hr, hc, hk, rfl⟩ := keysInstByte_eq_ok h
    simp [layoutBit, hbit1, instBit_resCode hr hi, instBit_sessionKeyCode hc (by decide) hi,
      instBit_sessionKeyCode hk (by decide) hi, hkey, Bool.or_comm]
  | f5star =>
    cases h
    simp [layoutBit, hbit0, hbit1, hkey, Bool.or_comm]

/-- A byte is given only for legal lengths (R219). -/
theorem lengthsOk_of_instByte : s.lengthsOk fam := by
  by_contra hbad
  rw [instByte_error hbad] at h
  cases h

end

/-- Settles O31: each bit is the one of the family's layout, for any key length. -/
theorem instByteLayouts : Obligations.InstByteLayouts := by
  unfold Obligations.InstByteLayouts
  intro s kbits _
  refine ⟨fun fam hbad => instByte_error hbad kbits, fun fam hlen => ?_⟩
  obtain ⟨v, hv⟩ := instByte_ok hlen kbits
  refine ⟨v, hv, ?_⟩
  intro bit
  have hbit : ∀ i < 8, bit i = layoutBit fam kbits s i := fun i hi => instBit_instByte hv hi
  clear_value bit
  cases fam with
  | topc =>
    refine ⟨by simp [hbit, layoutBit], fun i hi => ?_⟩
    simp [hbit i (by omega), layoutBit, hi.ne]
  | f1 => simp [hbit, layoutBit, lengthBit]
  | f1star => simp [hbit, layoutBit, lengthBit]
  | f2345 => simp [hbit, layoutBit, lengthBit]
  | f5star =>
    refine ⟨by simp [hbit, layoutBit], by simp [hbit, layoutBit], by simp [hbit, layoutBit], fun i h2 h7 => ?_⟩
    have h0 : i ≠ 0 := by omega
    have h1 : i ≠ 1 := by omega
    simp [hbit i (by omega), layoutBit, h7.ne, h0, h1]

/-! ## The profile a byte determines (R219) -/

/-- The family whose layout a byte has, by the star bit and bit 1, and by its length bits where neither is set. -/
def byteFamily (v : Byte) : Family :=
  match instBit v 0, instBit v 1 with
  | true, true => .f5star
  | true, false => .f1star
  | false, true => .f2345
  | false, false => if instBit v 2 || instBit v 3 || instBit v 4 then .f1 else .topc

/-- The layouts of distinct families differ: F1 has a length bit set, as every legal MAC length has one. -/
theorem byteFamily_instByte {fam : Family} {kbits : Nat} {s : State} {v : Byte} (h : instByte fam kbits s = .ok v) :
    byteFamily v = fam := by
  have hbit (i : Nat) (hi : i < 8) := instBit_instByte h hi
  have hlen := lengthsOk_of_instByte h
  cases fam with
  | f1 => rcases hlen with hmac | hmac | hmac <;> simp [byteFamily, hbit, layoutBit, lengthBit, hmac]
  | topc | f1star | f2345 | f5star => simp [byteFamily, hbit, layoutBit, lengthBit]

/-- Bit 7 of every byte is the key-length flag (R211). -/
theorem layoutBit_seven (fam : Family) (kbits : Nat) (s : State) : layoutBit fam kbits s 7 = decide (kbits = 256) := by
  cases fam <;> simp [layoutBit, lengthBit]

/-- Bits 2 to 4 of F1's and F1STAR's byte are the MAC code (R213). -/
theorem layoutBit_mac {fam : Family} (hfam : fam = .f1 ∨ fam = .f1star) (kbits : Nat) (s : State) {i : Nat}
    (h2 : 2 ≤ i) (h4 : i ≤ 4) : layoutBit fam kbits s i = lengthBit s.maclength.toNat i := by
  have h0 : i ≠ 0 := by omega
  have h7 : i ≠ 7 := by omega
  rcases hfam with rfl | rfl <;> simp [layoutBit, h0, h7]

/-- Bits 2 to 4 of F2345's byte are the RES code (R215). -/
theorem layoutBit_res (kbits : Nat) (s : State) {i : Nat} (h2 : 2 ≤ i) (h4 : i ≤ 4) :
    layoutBit .f2345 kbits s i = lengthBit s.reslength.toNat i := by
  have h1 : i ≠ 1 := by omega
  have h5 : i ≠ 5 := by omega
  have h6 : i ≠ 6 := by omega
  have h7 : i ≠ 7 := by omega
  simp [layoutBit, h1, h5, h6, h7]

/-- Two legal values of CKLENGTH or IKLENGTH with the same bit are the same. -/
theorem sessionKeyLength_inj {n n' : Half} (hn : n.toNat = 128 ∨ n.toNat = 256) (hn' : n'.toNat = 128 ∨ n'.toNat = 256)
    (h : n.toNat = 256 ↔ n'.toNat = 256) : n = n' :=
  BitVec.eq_of_toNat_eq (by omega)

section
variable {s s' : State} {k k' : Nat}

theorem maclength_eq_of_layoutBit {fam : Family} (hfam : fam = .f1 ∨ fam = .f1star) (hmac : s.macOk) (hmac' : s'.macOk)
    (hbit : ∀ i < 8, layoutBit fam k s i = layoutBit fam k' s' i) : s.maclength = s'.maclength := by
  refine BitVec.eq_of_toNat_eq (lengthBit_inj (.inr hmac) (.inr hmac') fun i h2 h4 => ?_)
  rw [← layoutBit_mac hfam k s h2 h4, ← layoutBit_mac hfam k' s' h2 h4, hbit i (by omega)]

theorem keysLengths_eq_of_layoutBit (hkeys : s.keysOk) (hkeys' : s'.keysOk)
    (hbit : ∀ i < 8, layoutBit .f2345 k s i = layoutBit .f2345 k' s' i) :
    s.reslength = s'.reslength ∧ s.cklength = s'.cklength ∧ s.iklength = s'.iklength := by
  obtain ⟨hres, hck, hik⟩ := hkeys
  obtain ⟨hres', hck', hik'⟩ := hkeys'
  refine ⟨BitVec.eq_of_toNat_eq (lengthBit_inj hres hres' fun i h2 h4 => ?_), sessionKeyLength_inj hck hck' ?_,
    sessionKeyLength_inj hik hik' ?_⟩
  · rw [← layoutBit_res k s h2 h4, ← layoutBit_res k' s' h2 h4, hbit i (by omega)]
  · simpa [layoutBit, lengthBit] using hbit 5 (by decide)
  · simpa [layoutBit, lengthBit] using hbit 6 (by decide)

end

/-- Settles O33: the byte determines the family, and its bits the lengths the family encodes. -/
theorem distinctProfilesHaveDistinctBytes : Obligations.DistinctProfilesHaveDistinctBytes := by
  unfold Obligations.DistinctProfilesHaveDistinctBytes
  intro s s' fam fam' k k' v hk hk' h h'
  obtain rfl : fam = fam' := (byteFamily_instByte h).symm.trans (byteFamily_instByte h')
  have hbit (i : Nat) (hi : i < 8) : layoutBit fam k s i = layoutBit fam k' s' i :=
    (instBit_instByte h hi).symm.trans (instBit_instByte h' hi)
  have hlen := lengthsOk_of_instByte h
  have hlen' := lengthsOk_of_instByte h'
  refine ⟨rfl, ?_, fun hfam => ?_, fun hfam => ?_⟩
  · have h256 : k = 256 ↔ k' = 256 := by simpa [layoutBit_seven] using hbit 7 (by decide)
    omega
  · have hmac : s.macOk ∧ s'.macOk := by rcases hfam with rfl | rfl <;> exact ⟨hlen, hlen'⟩
    exact maclength_eq_of_layoutBit hfam hmac.1 hmac.2 hbit
  · subst hfam
    exact keysLengths_eq_of_layoutBit hlen hlen' hbit

end Sys2Proof.Machine
end

section
/-! PROOFS. The first failing check of SESSION_INIT. -/

namespace Sys2Proof.Machine

theorem exec_sessionInit_error {s : State} {e : Err} (h : sessionChecks s = .error e) :
    exec .sessionInit s = .next { s with err := e } :=
  congrArg (s.endWith fun _ => (openSession s).done) h

section
variable {s : State} (hnone : s.sess = .none)
include hnone

theorem sessionChecks_keyLength (hkey : ¬ s.keyOk) : sessionChecks s = .error .invalidParameter := by
  simp only [sessionChecks, hnone, ne_eq, not_true_eq_false, if_false, resolveKBits_error hkey]

theorem sessionChecks_missingInput (hkey : s.keyOk) (hmissing : s.top.len.toNat = 0 ∧ s.topcIn.len.toNat = 0) :
    sessionChecks s = .error .missingInput := by
  simp only [sessionChecks, hnone, ne_eq, not_true_eq_false, if_false, resolveKBits_ok hkey, if_pos hmissing]

/-- Past the key length and the missing input every check raises INVALID_PARAMETER (R241). -/
theorem sessionChecks_invalidParameter (hkey : s.keyOk) (hinput : ¬ (s.top.len.toNat = 0 ∧ s.topcIn.len.toNat = 0))
    (hbad : ¬ (s.topcSourceOk ∧ s.inputsOk)) : sessionChecks s = .error .invalidParameter := by
  simp only [sessionChecks, hnone, ne_eq, not_true_eq_false, if_false, resolveKBits_ok hkey, if_neg hinput]
  split_ifs with htopc htop hlens hiter
  · rfl
  · rfl
  · rfl
  · rfl
  · exact absurd ⟨by omega, hkey, by omega⟩ hbad

end

/-- Settles O36: the checks in their order, each with its own error. -/
theorem sessionInitFirstFailingCheck : Obligations.SessionInitFirstFailingCheck := by
  unfold Obligations.SessionInitFirstFailingCheck
  intro s
  refine ⟨fun hsess => ?_, fun hnone hkey => ?_, fun hnone hkey htop htopc => ?_, fun hnone hkey hinput hbad => ?_⟩
  · exact exec_sessionInit_error (if_pos hsess)
  · exact exec_sessionInit_error (sessionChecks_keyLength hnone hkey)
  · exact exec_sessionInit_error (sessionChecks_missingInput hnone hkey ⟨htop, htopc⟩)
  · exact exec_sessionInit_error (sessionChecks_invalidParameter hnone hkey hinput (by rintro ⟨hsrc, -, hin⟩; omega))

end Sys2Proof.Machine
end

section
/-! PROOFS. F1 and F1STAR: their configuration bytes, and what the byte is in an assembled state. -/

namespace Sys2Proof.Machine

/-! ## The configuration byte in an assembled state (R185) -/

/-- Packing a field does not look at the bytes it keeps. -/
theorem byteAt_pushField_congr {b b' : Buf} {p : Nat} (h : byteAt b p = byteAt b' p) (off : Nat) (d : Bytes) :
    byteAt (pushField b off d) p = byteAt (pushField b' off d) p := by
  by_cases hp : p < 200
  · rw [byteAt_pushField _ _ _ hp, byteAt_pushField _ _ _ hp, h]
  · simp [byteAt, hp]

theorem byteAt_pushIf_congr {b b' : Buf} {p : Nat} (h : byteAt b p = byteAt b' p) (off : Nat) (d : Option Bytes) :
    byteAt (pushIf b off d) p = byteAt (pushIf b' off d) p := by
  cases d with
  | none => exact h
  | some d => exact byteAt_pushField_congr h off d

/-- A byte below an optional field is kept. -/
theorem byteAt_pushIf_below (b : Buf) {off p : Nat} (hp : p < off) (d : Option Bytes) :
    byteAt (pushIf b off d) p = byteAt b p := by
  cases d with
  | none => rfl
  | some d => exact byteAt_pushField_outside b (.inl hp)

section
variable (first : Bytes) (rand amf sqn : Option Bytes) (k : Bytes)

/-- Byte 32 of an assembled state is the configuration byte, whatever the fields. -/
theorem byteAt_assembleState_inst (inst : Byte) : byteAt (assembleState first inst rand amf sqn k) 32 = inst := by
  rw [assembleState_eq, byteAt_pushField_outside _ (.inl (by decide)), byteAt_pushIf_below _ (by decide),
    byteAt_pushIf_below _ (by decide), byteAt_pushIf_below _ (by decide), headerBlock,
    byteAt_pushField_outside _ (.inl (by decide))]
  exact byteAt_pushField_reversed _ (i := 0) (by simp) (by simp)

/-- No other byte depends on it. -/
theorem byteAt_assembleState_ne (v w : Byte) {p : Nat} (hp : p ≠ 32) :
    byteAt (assembleState first v rand amf sqn k) p = byteAt (assembleState first w rand amf sqn k) p := by
  have hkeep (inst : Byte) (b : Buf) : byteAt (pushField b 32 [inst]) p = byteAt b p :=
    byteAt_pushField_outside b (by simp only [List.length_singleton]; omega)
  have hheader : byteAt (headerBlock first v) p = byteAt (headerBlock first w) p :=
    byteAt_pushField_congr ((hkeep v _).trans (hkeep w _).symm) 33 algoBytes
  exact byteAt_pushField_congr (byteAt_pushIf_congr (byteAt_pushIf_congr (byteAt_pushIf_congr hheader _ _) _ _) _ _) _ _

end

/-! ## The star bit (R213) -/

/-- F1STAR's byte is F1's with the star flag joined. -/
theorem instByte_f1star_eq {kbits : Nat} {s : State} {v w : Byte} (h : instByte .f1 kbits s = .ok v)
    (hstar : instByte .f1star kbits s = .ok w) : w = ibit 0 ||| v := by
  obtain ⟨m, hm, rfl⟩ := macInstByte_eq_ok h
  obtain ⟨m', hm', rfl⟩ := macInstByte_eq_ok hstar
  obtain rfl := Option.some.inj (hm.symm.trans hm')
  simp [BitVec.or_assoc]

/-- Joining the star flag to a byte that does not have it sets bit 0x80 alone. -/
theorem ibit_or_of_clear : ∀ v : Byte, instBit v 0 = false → v &&& 0x80 = 0 ∧ ibit 0 ||| v = v ^^^ 0x80 := by decide

/-- Settles O58: F1's layout has no star bit, and an assembled state has the configuration byte at byte 32 alone. -/
theorem f1AndF1StarDifferInTheStarBit : Obligations.F1AndF1StarDifferInTheStarBit := by
  unfold Obligations.F1AndF1StarDifferInTheStarBit
  intro s kbits v w hv hw
  obtain rfl := instByte_f1star_eq hv hw
  have hclear : instBit v 0 = false := by rw [instBit_instByte hv (by decide)]; simp [layoutBit, lengthBit]
  obtain ⟨hand, hxor⟩ := ibit_or_of_clear v hclear
  exact ⟨hand, hxor, byteAt_assembleState_inst .., byteAt_assembleState_inst ..,
    fun p _ hp => byteAt_assembleState_ne _ _ _ _ _ _ _ hp⟩

end Sys2Proof.Machine
end

section
/-! PROOFS. The driver: `Iterate`, COMPUTE_TOPC, the failing checks of the F-commands, and a session opened from a
derived TOPc. -/

namespace Sys2Proof.Machine

/-- Settles O34: `iterate_eq`, whose loop is an induction on its count (`iterLoop_eq`). -/
theorem iterateAppliesAndReports : Obligations.IterateAppliesAndReports := by
  unfold Obligations.IterateAppliesAndReports
  exact iterate_eq

/-- Settles O45. -/
theorem nopMeaning : Obligations.NopMeaning := by
  unfold Obligations.NopMeaning
  exact fun _ => rfl

/-- Settles O37. -/
theorem sessionCloseMeaning : Obligations.SessionCloseMeaning := by
  unfold Obligations.SessionCloseMeaning
  exact fun _ => ⟨zeros 32, fun i _ => byteAt_zeros 32 i, rfl⟩

/-! ## COMPUTE_TOPC (R244, R245) -/

theorem topcChecks_ok {s : State} (hkey : s.keyOk) (htop : s.top.len.toNat = 32) (hiter : s.iter.toNat ≠ 0) :
    topcChecks s = .ok (8 * s.k.len.toNat) := by
  simp only [topcChecks, resolveKBits_ok hkey]
  rw [if_neg (not_not.mpr htop), if_neg hiter]

/-- Every check of COMPUTE_TOPC raises INVALID_PARAMETER. -/
theorem topcChecks_error {s : State} (h : ¬ (s.keyOk ∧ s.top.len.toNat = 32 ∧ s.iter.toNat ≠ 0)) :
    topcChecks s = .error .invalidParameter := by
  by_cases hkey : s.keyOk
  · simp only [topcChecks, resolveKBits_ok hkey]
    split_ifs with htop hiter
    · rfl
    · rfl
    · exact absurd ⟨hkey, not_not.mp htop, hiter⟩ h
  · simp only [topcChecks, resolveKBits_error hkey]

/-- The key-length flag is set for a K of 32 bytes (R211). -/
theorem keyFlag_of_keyLength (n : Nat) : keyFlag (8 * n) = if n = 32 then 0x01 else 0x00 := by
  by_cases h : n = 32
  · rw [if_pos h, h]; rfl
  · rw [if_neg h, keyFlag, if_neg (by omega)]

/-- The derivation assembles the whole of TOP, and K to its length. -/
theorem topcBlock_eq (s : State) :
    topcBlock (8 * s.k.len.toNat) s = assembleState s.top.bytes.toList (if s.k.len.toNat = 32 then 0x01 else 0x00)
      none none none (s.k.bytes.toList.take s.k.len.toNat) := by
  rw [topcBlock, State.topValue, firstBytes_cap, keyFlag_of_keyLength]
  rfl

theorem exec_computeTopc_ok {s : State} (hkey : s.keyOk) (htop : s.top.len.toNat = 32) (hiter : s.iter.toNat ≠ 0) :
    exec .computeTopc s = .next { s with
      topcOut := ⟨fill 32 s.derivedTopc, 32⟩
      dbg := s.dbg ++ s.derivationEvents .topc (topcBlock (8 * s.k.len.toNat) s)
      err := .ok } := by
  rw [exec_computeTopc, topcChecks_ok hkey htop hiter, State.endWith_ok, runFamily, State.withOutputs,
    writeOut_pullField 32 _ (by decide)]
  rfl

/-- Settles O38: the checks pass exactly on legal inputs, and the derivation's block is the one assembled. -/
theorem computeTopcMeaning : Obligations.ComputeTopcMeaning := by
  unfold Obligations.ComputeTopcMeaning
  intro s
  refine ⟨fun hkey htop hiter => ?_, fun hbad => ?_⟩
  · have hexec := exec_computeTopc_ok hkey htop hiter
    rw [State.derivedTopc, topcBlock_eq] at hexec
    exact hexec
  · rw [exec_computeTopc, topcChecks_error hbad]
    rfl

/-! ## The failing checks of the F-commands (R246) -/

/-- Settles O44: the prologue's first failing check, before anything is derived. -/
theorem fCommandFirstFailingCheck : Obligations.FCommandFirstFailingCheck := by
  unfold Obligations.FCommandFirstFailingCheck
  intro s fam i hcmd
  rw [exec_family hcmd]
  refine ⟨fun hnone => ?_, fun hsess hbad => ?_⟩
  · rw [fBegin_none hnone]
    rfl
  · have hfail : ¬ (s.keyOk ∧ s.lengthsOk fam ∧ packedOk fam s) := by
      rintro ⟨hkey, hlen, hrand, hpacked⟩
      rcases hbad with hbad | hbad | hbad | ⟨hfam, hbad⟩
      · exact hbad hkey
      · exact hbad hlen
      · exact hbad hrand
      · obtain ⟨hsqn, hamf⟩ := hpacked hfam
        exact hbad.elim (· hsqn) (· hamf)
    rw [fBegin_error hsess hfail]
    rfl

/-! ## A session opened from a derived TOPc (R255) -/

/-- On a READY session an F-command takes TOPc from the cache: with another TOPC_IN and another event history it ends
alike but for these two. -/
theorem exec_family_ready_topcIn {fam : Family} {i : Instr} (hcmd : Family.command fam = some i) {s : State}
    (hready : s.sess = .ready) (hin : s.inputsOk) (hlen : s.lengthsOk fam) (x : FieldReg 32) (l : List DbgEvent) :
    ∃ (t : State) (l' : List DbgEvent), exec i s = .next t ∧
      exec i { s with topcIn := x, dbg := l } = .next { t with topcIn := x, dbg := l' } := by
  let s' : State := { s with topcIn := x, dbg := l }
  have hlen' : s'.lengthsOk fam := by cases fam <;> exact hlen
  have hsame : instByte fam (8 * s.k.len.toNat) s' = instByte fam (8 * s.k.len.toNat) s := by cases fam <;> rfl
  have hrun (inst : Byte) :
      runFamily fam inst s' = { runFamily fam inst s with topcIn := x, dbg := (runFamily fam inst s').dbg } := by
    cases fam <;> rfl
  obtain ⟨inst, hinst, hexec⟩ := exec_family_ready hcmd hready hin hlen
  obtain ⟨inst', hinst', hexec'⟩ := exec_family_ready (s := s') hcmd hready hin hlen'
  obtain rfl : inst = inst' := Except.ok.inj (hinst.symm.trans (hsame.symm.trans hinst'))
  rw [hrun] at hexec'
  exact ⟨_, _, hexec, hexec'⟩

/-- Settles O57: after its derivation the session opened from TOP is the one opened from its TOPc, but for TOPC_IN and
the event history. -/
theorem topcReuseGivesSameOutputs : Obligations.TopcReuseGivesSameOutputs := by
  unfold Obligations.TopcReuseGivesSameOutputs
  intro s fam i hcmd hnone hin htopcIn htop hlen
  have ⟨hkey, _, _, _, hiter⟩ := hin
  let topc : FieldReg 32 := ⟨fill 32 s.derivedTopc, 32⟩
  let b : State := { s with sess := .uninitialized, err := .ok }
  have hlen' : b.lengthsOk fam ∧ b.topcResolved.lengthsOk fam := by cases fam <;> exact ⟨hlen, hlen⟩
  have hopenTop : exec .sessionInit s = .next b := (sessionInitOpensSession s hnone hin).2 ⟨htopcIn, htop⟩
  have hopenTopc := (sessionInitOpensSession { s with topcIn := topc } hnone hin).1 rfl
  obtain ⟨t, hfirst, hresolved, hcache, -, hok⟩ := firstFCommandDerivesTopc b fam i hcmd rfl hin hlen'.1
  obtain ⟨t', l, hready, hreuse⟩ :=
    exec_family_ready_topcIn (s := b.topcResolved) hcmd rfl hin hlen'.2 topc s.dbg
  obtain rfl : t = t' := Host.Outcome.next.inj (hresolved.symm.trans hready)
  exact ⟨_, _, _, _, _, exec_computeTopc_ok hkey htop hiter, hopenTop, hopenTopc, hfirst, hreuse, hok, hok, hcache,
    hcache, rfl, rfl, rfl, rfl, rfl, rfl, rfl⟩

end Sys2Proof.Machine
end

section
/-! PROOFS. Errors and progress: a failing command changes ERR alone, and every command and every step from a state that
meets the invariant answers a next state. -/

namespace Sys2Proof.Machine

/-! ## Failing commands (R302, R303) -/

/-- A command that succeeds leaves ERR at OK (R303). -/
theorem Succeeds.err {s t : State} {i : Instr} (h : Succeeds s t i) : t.err = .ok := by
  cases i with
  | nop | stateInit | sessionClose => obtain rfl := h; rfl
  | permute len | pushField off len | pullField off len => obtain ⟨-, rfl⟩ := h; rfl
  | selectInst sel => obtain ⟨fam, v, -, -, rfl⟩ := h; rfl
  | sessionInit => obtain ⟨-, -, -, rfl⟩ := h; rfl
  | computeTopc => obtain ⟨kbits, -, rfl⟩ := h; rfl
  | f1 | f1star | f2345 | f5star => exact (FamilySucceeds.sess h).1

/-- Settles O46: a command raises an error and does nothing else, or it succeeds, and then ERR is OK. -/
theorem failingCommandChangesErrAlone : Obligations.FailingCommandChangesErrAlone := by
  intro i s t h herr
  rcases exec_cases h with ⟨e, -, rfl⟩ | hsucc
  · rfl
  · exact absurd hsucc.err herr

/-! ## Progress (R301, R315, R355) -/

/-- Settles O47. -/
theorem everyCommandCompletes : Obligations.EveryCommandCompletes := exec_completes

/-- The engine's turn answers a next state, on a legal word and on an illegal one. -/
theorem issue_completes (s : State) : ∃ t, issue s = .next t := by
  cases hd : decode s.commandWord with
  | ok i => exact issue_ok hd ▸ exec_completes i s
  | error e => exact ⟨_, issue_error hd⟩

/-- Every host transaction answers a next state. -/
theorem transact_completes (r : HostReq) (s : State) : ∃ t, transact r s = .next t := by
  cases r with
  | read a | reset | interruptedCommand d => exact ⟨_, rfl⟩
  | write a d =>
    by_cases ha : a = cmdOpAddr
    · obtain ⟨t, ht⟩ := issue_completes (s.writeByte a d)
      exact ⟨t, (if_pos ha).trans ht⟩
    · exact ⟨_, transact_write ha d s⟩

/-- A step answers a next state in every session state that the host can see (R43). -/
theorem step_completes {s : State} (hsess : s.sess ≠ .topcResolved) : ∃ t, step s = .next t := by
  cases hp : s.port with
  | nil => exact ⟨_, step_idle hp⟩
  | cons r rest => exact step_transact hp hsess ▸ transact_completes r { s with port := rest }

/-- Settles O53: the invariant shuts out TOPC_RESOLVED, the one session state in which a step refuses. -/
theorem invStatesNeverStop : Obligations.InvStatesNeverStop := by
  intro s hs
  obtain ⟨⟨-, hsess, -⟩, -⟩ := hs
  exact step_completes hsess

end Sys2Proof.Machine
end

section
/-! PROOFS. A reset during a command: the interrupted CMD_OP write is a reset, and the command has no effect. -/

namespace Sys2Proof.Machine

/-- The byte of an interrupted CMD_OP write reaches neither CMD_OP nor the engine: the block is reset (R342). -/
theorem transact_interruptedCommand (d : Byte) (s : State) : transact (.interruptedCommand d) s = .next s.resetBlock :=
  rfl

/-- Settles O14: the interrupted write is taken off the port, and what it does is the reset of the block. -/
theorem resetDuringCommandLeavesResetValues : Obligations.ResetDuringCommandLeavesResetValues := by
  unfold Obligations.ResetDuringCommandLeavesResetValues
  intro s d rest hp hs
  rw [step_transact hp hs, transact_interruptedCommand, State.resetBlock]

end Sys2Proof.Machine
end
